-- ==== Sys2Proof/Word.lean ====
section
/-! DEFINITION. The word types of the BKC (00_scope R12). -/

namespace Sys2Proof

/-- A register, argument, time value or packed colour: 32 bits (00_scope R12). -/
abbrev Word := BitVec 32

/-- A pixel index, range offset, range size, trail length or fade factor: 16 bits (00_scope R12). -/
abbrev Half := BitVec 16

/-- A colour channel, or one byte lane of a word (00_scope R12, 20_memory R206). -/
abbrev Byte := BitVec 8

end Sys2Proof
end

