-- ==== Sys2Proof/Config.lean ====
section
/-! DEFINITION. What an implementation fixes: the constants and parameters of 00_scope R10, R11, and the free values. -/

namespace Sys2Proof

/-- The debug modes of `CTRL.DBG_MODE` (10_state R122): value 3 is reserved and never stored. -/
inductive DbgMode where
  | off
  | verbose
  | dryRun
deriving DecidableEq, Repr

namespace Config

/-- Snake instances per range (00_scope R10). -/
abbrev snakeCap : Nat := 4

/-- Capacity of a Random history ring (00_scope R10). -/
abbrev randHist : Nat := 8

/-- Patterns per Single-Pixel Controller (00_scope R10). -/
abbrev spcPatCap : Nat := 2

/-- Pulse-wave sub-tick period in milliseconds (00_scope R10). -/
abbrev pwaveTickMs : Word := 50

/-- The aperture is `0x50000` bytes (20_memory R200). -/
abbrev apertureSize : Nat := 0x50000

/-- Aperture offset of `FRAME[0]` in the frame view (20_memory R202, R210). -/
abbrev frameBase : Nat := 0x10000

/-- The open parameters of one instance (00_scope R10; log 1). `BKC_BASE` is read by no rule and left out (log 16). -/
structure Params where
  stripLen : Nat
  numRanges : Nat
  numSpc : Nat
  numGbk : Nat
  dbgRst : DbgMode
deriving DecidableEq, Repr

/-- The legal values of the parameters (00_scope R10). -/
abbrev Params.legal (p : Params) : Prop :=
  (1 ≤ p.stripLen ∧ p.stripLen ≤ 65535) ∧ (1 ≤ p.numRanges ∧ p.numRanges ≤ 8) ∧ p.numSpc ≤ 8 ∧ p.numGbk ≤ 8

/-- The parameter values that the spec's own vectors assume (00_scope R11). DESIGN CHOICE for `State.reset` (log 1). -/
def Params.vectors : Params :=
  { stripLen := 10, numRanges := 2, numSpc := 1, numGbk := 2, dbgRst := .off }

/-- FREE VALUE (log 6): what the `k`-th host read of an Engine-written register returns while `BUSY = 1`
(20_memory R208: "a model answers such a read with any 32-bit value"). -/
opaque freeRead : Nat → Word

/-- FREE VALUE (log 5): the number the random source gives for the `k`-th draw that the environment has not fixed
(10_state R106); a draw reduces it into its range. -/
opaque freeDraw : Nat → Nat

end Config

end Sys2Proof
end

