-- ==== Sys2Proof/Syntax.lean ====
section
/-! DEFINITION. The 15 commands of BKC command set version 1 (30_encoding R310). -/

namespace Sys2Proof

/-- A Snake's direction (30_encoding R304): clockwise is the direction of increasing index (43_range_update R505). -/
inductive Dir where
  | cw
  | ccw
deriving DecidableEq, Repr

/-- One command; `unit` is the field `UNIT`, the number of a GBK channel, a range or an SPC unit (30_encoding R301).
The operands in the argument registers are not part of the command word (R307). -/
inductive Instr where
  | nop
  | bkReset (unit : Nat)
  | bkPoll (unit : Nat)
  | blend
  | rangeCfg (unit : Nat)
  | rangeClear (unit : Nat)
  | rangeAddSnake (unit : Nat) (dir : Dir)
  | rangeAddPulse (unit : Nat)
  | rangeAddRandom (unit : Nat) (count : Nat)
  | rangeUpdate (unit : Nat)
  | spcClear (unit : Nat)
  | spcAddSolid (unit : Nat)
  | spcAddBlink (unit : Nat)
  | spcAddPwave (unit : Nat) (half : Nat)
  | spcUpdate (unit : Nat)
deriving DecidableEq, Repr

end Sys2Proof
end

