-- ==== Sys2Proof/WellFormed.lean ====
section
/-! DEFINITION. Which commands a command word can spell: every operand fits its field (30_encoding R301-R306).
A well-formed command may still name an absent unit or hold an illegal operand; that is an error its execution raises. -/

namespace Sys2Proof

/-- A unit number fits `UNIT[23:20]` (30_encoding R301). -/
abbrev UnitFits (u : Nat) : Prop := u < 16

/-- Every operand fits its field: `UNIT` in 4 bits, `COUNT` in 4 bits (R305), `HALF` in 11 bits (R306). -/
def Instr.wellFormed : Instr → Bool
  | .nop => true
  | .bkReset u => decide (UnitFits u)
  | .bkPoll u => decide (UnitFits u)
  | .blend => true
  | .rangeCfg u => decide (UnitFits u)
  | .rangeClear u => decide (UnitFits u)
  | .rangeAddSnake u _ => decide (UnitFits u)
  | .rangeAddPulse u => decide (UnitFits u)
  | .rangeAddRandom u c => decide (UnitFits u) && decide (c < 16)
  | .rangeUpdate u => decide (UnitFits u)
  | .spcClear u => decide (UnitFits u)
  | .spcAddSolid u => decide (UnitFits u)
  | .spcAddBlink u => decide (UnitFits u)
  | .spcAddPwave u h => decide (UnitFits u) && decide (h < 2048)
  | .spcUpdate u => decide (UnitFits u)

end Sys2Proof
end

