-- ==== Sys2Proof/Decode.lean ====
section
/-! DEFINITION. Decoding a 32-bit command word (30_encoding R300-R316) and encoding a command (R310, R320).
The decoder is total: every word is a command, an undefined opcode or a word with reserved bits set. -/

namespace Sys2Proof

/-- What a command word spells. The two rejections are the errors that need no unit: checks (1) and (2) of
60_exceptions R715. -/
inductive Decoded where
  /-- The word spells this command. -/
  | command (i : Instr)
  /-- `OPC` is not in the table of 30_encoding R310: `Error(OPC)` (R315). -/
  | undefinedOpcode
  /-- The opcode is defined and a required-zero field is not zero: `Error(RSV)` (R316). -/
  | reservedBits
deriving DecidableEq, Repr

/-- The unsigned field `w[hi:lo]` (00_scope R20). -/
def field (hi lo : Nat) (w : Word) : Nat := w.toNat / 2 ^ lo % 2 ^ (hi - lo + 1)

/-- `OPC`, bits 31:24 (30_encoding R301). -/
def opcField (w : Word) : Nat := field 31 24 w

/-- `UNIT`, bits 23:20 (30_encoding R301). -/
def unitField (w : Word) : Nat := field 23 20 w

/-- `OPND`, bits 19:0 (30_encoding R301). -/
def opndField (w : Word) : Nat := field 19 0 w

/-- `DIR` of format S (30_encoding R304): 0 clockwise, 1 counter-clockwise. -/
def dirOfBit (b : Nat) : Dir := if b = 0 then .cw else .ccw

/-- The bit that spells a direction (30_encoding R304). -/
def bitOfDir : Dir → Nat
  | .cw => 0
  | .ccw => 1

/-- Format Z: `UNIT = 0` and `OPND = 0` are required (30_encoding R302). -/
def decodeZ (w : Word) (i : Instr) : Decoded :=
  if unitField w = 0 ∧ opndField w = 0 then .command i else .reservedBits

/-- Format U: `OPND = 0` is required (30_encoding R303). -/
def decodeU (w : Word) (mk : Nat → Instr) : Decoded :=
  if opndField w = 0 then .command (mk (unitField w)) else .reservedBits

/-- Format S: `OPND[0]` is the direction, `OPND[19:1] = 0` is required (30_encoding R304). -/
def decodeS (w : Word) (mk : Nat → Dir → Instr) : Decoded :=
  if field 19 1 w = 0 then .command (mk (unitField w) (dirOfBit (field 0 0 w))) else .reservedBits

/-- Format R: `OPND[3:0]` is the count, `OPND[19:4] = 0` is required (30_encoding R305). -/
def decodeR (w : Word) (mk : Nat → Nat → Instr) : Decoded :=
  if field 19 4 w = 0 then .command (mk (unitField w) (field 3 0 w)) else .reservedBits

/-- Format W: `OPND[10:0]` is the half period, `OPND[19:11] = 0` is required (30_encoding R306). -/
def decodeW (w : Word) (mk : Nat → Nat → Instr) : Decoded :=
  if field 19 11 w = 0 then .command (mk (unitField w) (field 10 0 w)) else .reservedBits

/-- The opcode map of 30_encoding R310; the opcode is checked before the reserved fields (60_exceptions R715). -/
def decode (w : Word) : Decoded :=
  match opcField w with
  | 0x00 => decodeZ w .nop
  | 0x01 => decodeU w .bkReset
  | 0x02 => decodeU w .bkPoll
  | 0x03 => decodeZ w .blend
  | 0x10 => decodeU w .rangeCfg
  | 0x11 => decodeU w .rangeClear
  | 0x12 => decodeS w .rangeAddSnake
  | 0x13 => decodeU w .rangeAddPulse
  | 0x14 => decodeR w .rangeAddRandom
  | 0x15 => decodeU w .rangeUpdate
  | 0x20 => decodeU w .spcClear
  | 0x21 => decodeU w .spcAddSolid
  | 0x22 => decodeU w .spcAddBlink
  | 0x23 => decodeW w .spcAddPwave
  | 0x24 => decodeU w .spcUpdate
  | _ => .undefinedOpcode

/-- `OPC` of a command (30_encoding R310). -/
def Instr.opc : Instr → Nat
  | .nop => 0x00
  | .bkReset _ => 0x01
  | .bkPoll _ => 0x02
  | .blend => 0x03
  | .rangeCfg _ => 0x10
  | .rangeClear _ => 0x11
  | .rangeAddSnake _ _ => 0x12
  | .rangeAddPulse _ => 0x13
  | .rangeAddRandom _ _ => 0x14
  | .rangeUpdate _ => 0x15
  | .spcClear _ => 0x20
  | .spcAddSolid _ => 0x21
  | .spcAddBlink _ => 0x22
  | .spcAddPwave _ _ => 0x23
  | .spcUpdate _ => 0x24

/-- `UNIT` of a command: 0 in format Z (30_encoding R301, R302). -/
def Instr.unitNum : Instr → Nat
  | .nop => 0
  | .bkReset u => u
  | .bkPoll u => u
  | .blend => 0
  | .rangeCfg u => u
  | .rangeClear u => u
  | .rangeAddSnake u _ => u
  | .rangeAddPulse u => u
  | .rangeAddRandom u _ => u
  | .rangeUpdate u => u
  | .spcClear u => u
  | .spcAddSolid u => u
  | .spcAddBlink u => u
  | .spcAddPwave u _ => u
  | .spcUpdate u => u

/-- `OPND` of a command (30_encoding R302-R306). -/
def Instr.opnd : Instr → Nat
  | .nop => 0
  | .bkReset _ => 0
  | .bkPoll _ => 0
  | .blend => 0
  | .rangeCfg _ => 0
  | .rangeClear _ => 0
  | .rangeAddSnake _ d => bitOfDir d
  | .rangeAddPulse _ => 0
  | .rangeAddRandom _ c => c
  | .rangeUpdate _ => 0
  | .spcClear _ => 0
  | .spcAddSolid _ => 0
  | .spcAddBlink _ => 0
  | .spcAddPwave _ h => h
  | .spcUpdate _ => 0

/-- "The encoding of a command is `(OPC << 24) | (UNIT << 20) | OPND`" (30_encoding R310); the fields do not overlap in
a well-formed command, so the sum is the same number. -/
def encode (i : Instr) : Word := BitVec.ofNat 32 (i.opc * 2 ^ 24 + i.unitNum * 2 ^ 20 + i.opnd)

/-- One row of the opcode map: a word `w` spells the command of a row exactly when `w & mask = match` (30_encoding R310). -/
structure OpcodeRow where
  mnemonic : String
  matchBits : Word
  mask : Word
deriving DecidableEq, Repr

/-- A word spells the command of a row (30_encoding R310). -/
def OpcodeRow.spells (row : OpcodeRow) (w : Word) : Bool := w &&& row.mask == row.matchBits

/-- The row of the opcode map that a command belongs to (30_encoding R310). -/
def Instr.row : Instr → OpcodeRow
  | .nop => ⟨"NOP", 0x00000000, 0xFFFFFFFF⟩
  | .bkReset _ => ⟨"BK_RESET", 0x01000000, 0xFF0FFFFF⟩
  | .bkPoll _ => ⟨"BK_POLL", 0x02000000, 0xFF0FFFFF⟩
  | .blend => ⟨"BLEND", 0x03000000, 0xFFFFFFFF⟩
  | .rangeCfg _ => ⟨"RANGE_CFG", 0x10000000, 0xFF0FFFFF⟩
  | .rangeClear _ => ⟨"RANGE_CLEAR", 0x11000000, 0xFF0FFFFF⟩
  | .rangeAddSnake _ _ => ⟨"RANGE_ADD_SNAKE", 0x12000000, 0xFF0FFFFE⟩
  | .rangeAddPulse _ => ⟨"RANGE_ADD_PULSE", 0x13000000, 0xFF0FFFFF⟩
  | .rangeAddRandom _ _ => ⟨"RANGE_ADD_RANDOM", 0x14000000, 0xFF0FFFF0⟩
  | .rangeUpdate _ => ⟨"RANGE_UPDATE", 0x15000000, 0xFF0FFFFF⟩
  | .spcClear _ => ⟨"SPC_CLEAR", 0x20000000, 0xFF0FFFFF⟩
  | .spcAddSolid _ => ⟨"SPC_ADD_SOLID", 0x21000000, 0xFF0FFFFF⟩
  | .spcAddBlink _ => ⟨"SPC_ADD_BLINK", 0x22000000, 0xFF0FFFFF⟩
  | .spcAddPwave _ _ => ⟨"SPC_ADD_PWAVE", 0x23000000, 0xFF0FF800⟩
  | .spcUpdate _ => ⟨"SPC_UPDATE", 0x24000000, 0xFF0FFFFF⟩

/-- A command with every operand zero for each row of the opcode map (30_encoding R310), in the table's order. -/
def opcodeMap : List Instr :=
  [.nop, .bkReset 0, .bkPoll 0, .blend, .rangeCfg 0, .rangeClear 0, .rangeAddSnake 0 .cw, .rangeAddPulse 0,
   .rangeAddRandom 0 0, .rangeUpdate 0, .spcClear 0, .spcAddSolid 0, .spcAddBlink 0, .spcAddPwave 0 0, .spcUpdate 0]

/-- The command word that `nbits` bits of an opcode-table row stand for: a command is one 32-bit word written whole to
`CMD` (30_encoding R300), so there is no byte order to apply; bits from `nbits` up are 0. -/
def tableWord (nbits w : Nat) : Word := BitVec.ofNat 32 (w % 2 ^ nbits)

/-- The command the decoder reads from the bits of an opcode-table row; none where it refuses. -/
def decodeTableWord (nbits w : Nat) : Option Instr :=
  match decode (tableWord nbits w) with
  | .command i => some i
  | .undefinedOpcode => none
  | .reservedBits => none

end Sys2Proof
end

