-- ==== Sys2Proof/Machine/State.lean ====
section
/-! DEFINITION. The state of the BKC as plain data (10_state), its reset values (R175), and why a step can stop. -/

namespace Sys2Proof.Machine

open Sys2Proof

/-- A colour is a packed word (10_state R140). -/
abbrev Color := Word

/-- A BeatKeeper (10_state R145); `dur = 0` means disabled. -/
structure BeatKeeper where
  dur : Word
  start : Word
  cum : Word
deriving DecidableEq, Repr

/-- A BeatKeeper with every field 0 (10_state R175). -/
def BeatKeeper.zero : BeatKeeper := { dur := 0, start := 0, cum := 0 }

/-- A Snake slot of a range (10_state R152). -/
structure Snake where
  color : Color
  start : Half
  dir : Dir
  len : Half
  fade : Half
  bk : BeatKeeper
  head : Half
deriving DecidableEq, Repr

/-- A Snake slot with every field 0 (10_state R175). -/
def Snake.zero : Snake := { color := 0, start := 0, dir := .cw, len := 0, fade := 0, bk := .zero, head := 0 }

/-- The Pulse slot of a range (10_state R153). -/
structure Pulse where
  color : Color
  bk : BeatKeeper
  level : BitVec 1
deriving DecidableEq, Repr

/-- A Pulse slot with every field 0 (10_state R175). -/
def Pulse.zero : Pulse := { color := 0, bk := .zero, level := 0 }

/-- The Random slot of a range (10_state R154): `count`, `len` in `0..8`, `cur` in `0..7`. -/
structure Rnd where
  fg : Color
  bg : Color
  count : Fin (Config.randHist + 1)
  bk : BeatKeeper
  hist : Vector Half Config.randHist
  len : Fin (Config.randHist + 1)
  cur : Fin Config.randHist
deriving DecidableEq, Repr

/-- A Random slot with every field 0 (10_state R175). -/
def Rnd.zero : Rnd :=
  { fg := 0, bg := 0, count := 0, bk := .zero, hist := Vector.replicate Config.randHist 0, len := 0, cur := 0 }

/-- A Pixel Range unit (10_state R150-R154). Snake slots `k < nsnake` are active. -/
structure RangeUnit where
  offset : Half
  size : Half
  nsnake : Fin (Config.snakeCap + 1)
  snake : Vector Snake Config.snakeCap
  pulseAct : Bool
  pulse : Pulse
  rndAct : Bool
  rnd : Rnd
deriving DecidableEq, Repr

/-- A range with this interval, no effect and every slot 0 (10_state R175). -/
def RangeUnit.empty (offset size : Half) : RangeUnit :=
  { offset := offset, size := size, nsnake := 0, snake := Vector.replicate Config.snakeCap .zero,
    pulseAct := false, pulse := .zero, rndAct := false, rnd := .zero }

/-- The kind of a pattern slot (10_state R160). `none` is the content 0 of a slot that no registration has filled
(R175; DEDUCED, safe, log 13). -/
inductive PatKind where
  | none
  | solid
  | blink
  | pwave
deriving DecidableEq, Repr

/-- A pattern slot of an SPC unit (10_state R160). -/
structure Pattern where
  kind : PatKind
  colA : Color
  colB : Color
  half : BitVec 11
  bk : BeatKeeper
  phase : BitVec 12
deriving DecidableEq, Repr

/-- A pattern slot with every field 0 (10_state R175). -/
def Pattern.zero : Pattern := { kind := .none, colA := 0, colB := 0, half := 0, bk := .zero, phase := 0 }

/-- A Single-Pixel Controller unit (10_state R160, R165) with its handshake pair (R105): `showReq` is the output
`spc_show_req_s`, `showAck` the level the SPC device drives on `spc_show_ack_s`. Slots `j < npat` are active. -/
structure SpcUnit where
  npat : Fin (Config.spcPatCap + 1)
  pat : Vector Pattern Config.spcPatCap
  pixel : Color
  showReq : Bool
  showAck : Bool
deriving DecidableEq, Repr

/-- An SPC unit after reset (10_state R175), with the level its device drives. -/
def SpcUnit.empty (showAck : Bool) : SpcUnit :=
  { npat := 0, pat := Vector.replicate Config.spcPatCap .zero, pixel := 0, showReq := false, showAck := showAck }

/-- Four argument words: the registers `ARG0..ARG3` or their latched copy (10_state R110, R112). -/
structure Args where
  a0 : Word
  a1 : Word
  a2 : Word
  a3 : Word
deriving DecidableEq, Repr

/-- Four argument words of 0 (10_state R175). -/
def Args.zero : Args := { a0 := 0, a1 := 0, a2 := 0, a3 := 0 }

/-- The command latch (10_state R112). -/
structure Latch where
  word : Word
  a : Args
  mode : DbgMode
deriving DecidableEq, Repr

/-- The latch with every field 0 (10_state R175); mode 0 is off (R122). -/
def Latch.zero : Latch := { word := 0, a := .zero, mode := .off }

/-- The Engine phase (10_state R113). -/
inductive Phase where
  | idle
  | exec
  | waitShow
  | waitSpc (s : Nat)
deriving DecidableEq, Repr

/-- The error causes of 60_exceptions R701-R706. -/
inductive ErrCode where
  | opc
  | rsv
  | unit
  | arg
  | busy
  | acc
deriving DecidableEq, Repr

/-- The size of a host access in bytes: 1, 2 or 4 (10_state R102). -/
inductive AccSize where
  | b1
  | b2
  | b4
deriving DecidableEq, Repr

/-- One read of the strip device's frame port beside an Engine step: the pixel read, and whether the read sees it as it is
after that step or as it was before (20_memory R212: "pixel by pixel, the value before or after a concurrent EXEC step"). -/
structure PixelRead where
  idx : Half
  after : Bool
deriving DecidableEq, Repr

/-- A move of an agent other than the Engine, or a turn given to the Engine (10_state R100; log 2). -/
inductive Move where
  /-- The Engine takes its step, if it has one. -/
  | engine
  /-- The Engine takes its step while the strip device reads these pixels beside it, in this order (20_memory R212;
  log 24). -/
  | scan (reads : List PixelRead)
  /-- The host writes `v` with this size at this byte offset of the aperture (R102). -/
  | write (off : Nat) (size : AccSize) (v : Word)
  /-- The host reads with this size at this byte offset of the aperture (R102). -/
  | read (off : Nat) (size : AccSize)
  /-- The platform changes `now_ms` (R103). -/
  | clock (t : Word)
  /-- The environment fixes the answer of a later draw (R106; 30_encoding R321 `@draw`). -/
  | draw (answer : Nat)
  /-- The strip device drives `show_ack` (R104). -/
  | stripAck (level : Bool)
  /-- The device of SPC unit `s` drives `spc_show_ack_s` (R105). -/
  | spcAck (s : Nat) (level : Bool)
  /-- The strip device drives `dev_idx` (R104). -/
  | devIdx (i : Half)
  /-- `rst_n` goes low (R101). -/
  | assertReset
  /-- `rst_n` goes high (R101). -/
  | releaseReset
deriving DecidableEq, Repr

/-- The random-index source (10_state R106; log 5): answers the environment has fixed, and how many draws it left free. -/
structure Oracle where
  answers : List Nat
  count : Nat
deriving DecidableEq, Repr

/-- No answer fixed and no draw made (the model's own starting value, log 5). -/
def Oracle.fresh : Oracle := { answers := [], count := 0 }

/-- The frame store as `(aperture offset, byte)` pairs: offsets strictly rising, no byte equal to `Memory.unlisted`. -/
abbrev Memory := List Host.Cell

/-- What an unlisted byte reads as: the frame is black after reset (10_state R141, R170, R175). -/
def Memory.unlisted : Byte := 0

/-- The whole state. The first group is the BKC's (10_state), the second its parameters (00_scope R10; log 1), the third
the input levels of its ports (log 4, 9), the last the model's own bookkeeping (log 2, 5, 6, 9, 24). -/
structure State where
  /-- `ARG0..ARG3` (R110). -/
  args : Args
  /-- `RESULT` (R110). -/
  result : Word
  /-- `CTRL.DBG_MODE` (R122). -/
  dbgMode : DbgMode
  /-- `STATUS[13:8]`, the sticky error bits, `E_OPC` lowest (R124). -/
  errs : BitVec 6
  /-- `ERR_INFO` (R127). -/
  errInfo : Word
  /-- `ERR_CODE[3:0]` (R127). -/
  errCode : BitVec 4
  /-- `FLUSH_CNT` (R128). -/
  flushCnt : Word
  /-- `WRITE_CNT` (R128). -/
  writeCnt : Word
  /-- `SPC_FLUSH_CNT` (R128). -/
  spcFlushCnt : Word
  /-- `LATCH` (R112). -/
  latch : Latch
  /-- `PHASE` (R113). -/
  phase : Phase
  /-- The `NUM_GBK` general-purpose BeatKeeper channels (R146). -/
  gbk : List BeatKeeper
  /-- The `NUM_RANGES` Pixel Range units (R150-R154). -/
  ranges : List RangeUnit
  /-- The `NUM_SPC` Single-Pixel Controller units (R160-R165). -/
  spc : List SpcUnit
  /-- `FRAME` (R170), byte by byte. -/
  mem : Memory
  /-- The output `show_req` (R104). -/
  showReq : Bool
  /-- `STRIP_LEN` (00_scope R10). -/
  stripLen : Nat
  /-- `DBG_MODE_RST` (00_scope R10). -/
  dbgRst : DbgMode
  /-- The input `rst_n` (R101): true is high. -/
  rstN : Bool
  /-- The input `now_ms` (R103). -/
  nowMs : Word
  /-- The input `show_ack` (R104). -/
  showAck : Bool
  /-- The input `dev_idx` (R104). -/
  devIdx : Half
  /-- The random-index source (R106). -/
  rng : Oracle
  /-- The pixels that the strip device read beside an Engine step, the last time it did (20_memory R212; log 24). -/
  scanned : List Color
  /-- The data of the last host read (R102). -/
  rdata : Word
  /-- How many reads of unspecified value have been made (20_memory R208). -/
  freeReads : Nat
  /-- The moves of the other agents still to come, in order (R100). -/
  agenda : List Move
deriving DecidableEq, Repr

/-- Why the machine stops. No command raises one: the BKC "never traps, vectors or stops" (60_exceptions). -/
inductive Fault where
  /-- A host access at an offset that is not in the aperture of 0x50000 bytes (20_memory R200). Raised by the host's
  read and write moves. Safe: the BKC is not addressed by it (log 11). -/
  | outsideAperture (off : Nat)
deriving DecidableEq, Repr

/-- Why the model gives a step no meaning. -/
inductive Refusal where
  /-- An instruction the model gives no meaning to. Raised by no arm of `exec`. Safe. -/
  | notModelled (mnemonic : String)
  /-- The environment drives an acknowledge of an SPC unit that does not exist (10_state R105). Raised by the move
  `spcAck`. Safe: there is no such port (log 12). -/
  | absentSpcPort (s : Nat)
deriving DecidableEq, Repr

/-- The outcome of a step or of an instruction. -/
abbrev Out := Host.Outcome State Fault Refusal

/-- `NUM_RANGES`: range units `r < NUM_RANGES` exist (10_state R150). -/
def State.numRanges (s : State) : Nat := s.ranges.length

/-- `NUM_SPC` (10_state R160). -/
def State.numSpc (s : State) : Nat := s.spc.length

/-- `NUM_GBK` (10_state R146). -/
def State.numGbk (s : State) : Nat := s.gbk.length

/-- The parameters of the instance (00_scope R10). -/
def State.params (s : State) : Config.Params :=
  { stripLen := s.stripLen, numRanges := s.numRanges, numSpc := s.numSpc, numGbk := s.numGbk, dbgRst := s.dbgRst }

/-- Range units after reset: range 0 is the whole strip, the others are unconfigured (10_state R175). -/
def resetRanges (p : Config.Params) : List RangeUnit :=
  match p.numRanges with
  | 0 => []
  | n + 1 => .empty 0 (BitVec.ofNat 16 p.stripLen) :: List.replicate n (.empty 0 0)

/-- The machine right after reset (10_state R175), for an instance with parameters `p`: `rst_n` is high again
(70_reset R800), the inputs are at rest and the model's own fields are empty (log 4, 5, 6, 9, 24). -/
def State.resetWith (p : Config.Params) : State :=
  { args := .zero, result := 0, dbgMode := p.dbgRst, errs := 0, errInfo := 0, errCode := 0,
    flushCnt := 0, writeCnt := 0, spcFlushCnt := 0, latch := .zero, phase := .idle,
    gbk := List.replicate p.numGbk .zero, ranges := resetRanges p, spc := List.replicate p.numSpc (.empty false),
    mem := [], showReq := false, stripLen := p.stripLen, dbgRst := p.dbgRst,
    rstN := true, nowMs := 0, showAck := false, devIdx := 0,
    rng := .fresh, scanned := [], rdata := 0, freeReads := 0, agenda := [] }

/-- The machine right after reset, with the parameters the spec's vectors assume (00_scope R11; log 1). -/
def State.reset : State := .resetWith Config.Params.vectors

end Sys2Proof.Machine
end

