-- ==== Sys2Proof/Machine/Color.lean ====
section
/-! DEFINITION. Colour channels and the colour primitives of 41_color (R430-R436). -/

namespace Sys2Proof.Machine

open Sys2Proof

/-- The four channels of a colour (10_state R140). -/
inductive Chan where
  | w
  | r
  | g
  | b
deriving DecidableEq, Repr

/-- `RoundHalfUp(n, d)` of 00_scope R22: `n / d` to the nearest integer, a tie upwards. The rule asks for `d > 0`. -/
def roundHalfUp (n d : Nat) : Nat := (2 * n + d) / (2 * d)

/-- Black (10_state R141). -/
def black : Color := 0

/-- `ch(c, k)`: W is bits 31:24, R 23:16, G 15:8, B 7:0 (10_state R140). -/
def ch (c : Color) : Chan → Byte
  | .w => c.extractLsb' 24 8
  | .r => c.extractLsb' 16 8
  | .g => c.extractLsb' 8 8
  | .b => c.extractLsb' 0 8

/-- The colour with the given channels (10_state R140). -/
def packChannels (f : Chan → Byte) : Color := f .w ++ f .r ++ f .g ++ f .b

/-- The addend of one channel, `RoundHalfUp(ch(src, k) * gn, gd)` (41_color R432). -/
def weighted (c : Color) (gn gd : Nat) (k : Chan) : Nat := roundHalfUp ((ch c k).toNat * gn) gd

/-- `Blend(dst, src, gn, gd)`: each channel is `(dst + RoundHalfUp(src * gn, gd)) mod 256` (41_color R432). -/
def blend (dst src : Color) (gn gd : Nat) : Color :=
  packChannels fun k => BitVec.ofNat 8 ((ch dst k).toNat + weighted src gn gd k)

/-- `Overwrite(dst, src) = src` (41_color R435). -/
def overwrite (_dst src : Color) : Color := src

/-- `Scale(c, gn, gd)`: each channel is `RoundHalfUp(c * gn, gd)` (41_color R436). -/
def scale (c : Color) (gn gd : Nat) : Color :=
  packChannels fun k => BitVec.ofNat 8 (weighted c gn gd k)

end Sys2Proof.Machine
end

