-- ==== Sys2Proof/Machine/Flags.lean ====
section
/-! DEFINITION. The `STATUS` register: its value, which bit an error sets, and its write-1-to-clear (10_state R124). -/

namespace Sys2Proof.Machine

open Sys2Proof

/-- The code of an error, as `ERR_CODE` shows it (60_exceptions R708). -/
def ErrCode.num : ErrCode → Nat
  | .opc => 1
  | .rsv => 2
  | .unit => 3
  | .arg => 4
  | .busy => 5
  | .acc => 6

/-- The sticky bit of an error among `STATUS[13:8]`: bit `7 + code` of `STATUS` (60_exceptions R710). -/
def ErrCode.bit (e : ErrCode) : BitVec 6 := BitVec.twoPow 6 (e.num - 1)

/-- `STATUS.BUSY = 1` exactly when `PHASE != IDLE` (10_state R113). -/
def State.busy (s : State) : Bool := s.phase != .idle

/-- The value of `STATUS` (10_state R124): `BUSY` in bit 0, the error bits in 13:8, every other bit 0. -/
def State.status (s : State) : Word := s.errs.setWidth 32 <<< 8 ||| (BitVec.ofBool s.busy).setWidth 32

/-- The write-1-to-clear mask of a value written to `STATUS`: its bits 13:8 (45_system R613). -/
def statusClearMask (v : Word) : BitVec 6 := v.extractLsb' 8 6

/-- The value of a debug mode in `CTRL[1:0]` (10_state R122). -/
def modeBits : DbgMode → BitVec 2
  | .off => 0
  | .verbose => 1
  | .dryRun => 2

/-- The mode that `CTRL[1:0]` selects; 3 is reserved (10_state R122). -/
def modeOfBits (b : BitVec 2) : Option DbgMode :=
  match b.toNat with
  | 0 => some .off
  | 1 => some .verbose
  | 2 => some .dryRun
  | _ => none

end Sys2Proof.Machine
end

