-- ==== Sys2Proof/Machine/Ops.lean ====
section
/-! DEFINITION. The named operations every command is written over: the frame store, BeatKeepers, draws, unit updates,
recording an error, ending a command and starting a flush. -/

namespace Sys2Proof.Machine

open Sys2Proof

/-! ## The frame store -/

/-- The byte at an aperture offset; an unlisted byte reads as `Memory.unlisted`. -/
def Memory.get : Memory → Nat → Byte
  | [], _ => Memory.unlisted
  | (k, v) :: m, a => if k = a then v else Memory.get m a

/-- The memory with one byte replaced, in canonical form. -/
def Memory.set : Memory → Nat → Byte → Memory
  | [], a, b => if b = Memory.unlisted then [] else [(a, b)]
  | (k, v) :: m, a, b =>
    if a < k then (if b = Memory.unlisted then (k, v) :: m else (a, b) :: (k, v) :: m)
    else if a = k then (if b = Memory.unlisted then m else (a, b) :: m)
    else (k, v) :: Memory.set m a b

/-- The canonical form: offsets strictly rising, no byte equal to what an unlisted offset reads as. -/
def Memory.wf : Memory → Bool
  | [] => true
  | (k, v) :: m => decide (v ≠ Memory.unlisted) && m.all (fun c => decide (k < c.1)) && Memory.wf m

/-- Aperture offset of the lowest byte of `FRAME[i]` (20_memory R202, R210). -/
def pixelAddr (i : Nat) : Nat := Config.frameBase + 4 * i

/-- `FrameRead(i)` (20_memory R210); byte lane `k` of a word carries its bits `[8k+7:8k]` (R206). -/
def readPixel (m : Memory) (i : Nat) : Color :=
  Memory.get m (pixelAddr i + 3) ++ Memory.get m (pixelAddr i + 2) ++ Memory.get m (pixelAddr i + 1) ++
    Memory.get m (pixelAddr i)

/-- `FrameWrite(i, c)`: one whole 32-bit pixel word, stored unchanged (20_memory R207, R211). -/
def writePixel (m : Memory) (i : Nat) (c : Color) : Memory :=
  Memory.set (Memory.set (Memory.set (Memory.set m (pixelAddr i) (c.extractLsb' 0 8)) (pixelAddr i + 1)
    (c.extractLsb' 8 8)) (pixelAddr i + 2) (c.extractLsb' 16 8)) (pixelAddr i + 3) (c.extractLsb' 24 8)

/-- `FrameWrite` of successive pixels from index `i` on (43_range_update R520). -/
def writePixels (m : Memory) : Nat → List Color → Memory
  | _, [] => m
  | i, c :: cs => writePixels (writePixel m i c) (i + 1) cs

/-- `FRAME[i]` of a state (10_state R170). -/
def State.frame (s : State) (i : Nat) : Color := readPixel s.mem i

/-! ## BeatKeepers -/

/-- `BkReset(bk, d)` with time sample `now` (40_beatkeeper R401). -/
def bkReset (now d : Word) : BeatKeeper := { dur := d, start := now, cum := 0 }

/-- `Poll(bk)` with time sample `now`: the beat count returned and the BeatKeeper left (40_beatkeeper R402). -/
def poll (now : Word) (bk : BeatKeeper) : Word × BeatKeeper :=
  if bk.dur = 0 then (0, bk)
  else if now < bk.start then (0, bkReset now bk.dur)
  else
    let total := (now - bk.start) / bk.dur
    if total < bk.cum then (0, bkReset now bk.dur)
    else (total - bk.cum, { bk with cum := total })

/-- The beat count a poll returns (40_beatkeeper R402). -/
def beats (now : Word) (bk : BeatKeeper) : Word := (poll now bk).1

/-- The BeatKeeper a poll leaves (40_beatkeeper R402). -/
def polled (now : Word) (bk : BeatKeeper) : BeatKeeper := (poll now bk).2

/-! ## Collections with active leading slots -/

/-- The slots `k < m` changed by `f`, the others kept: an operation on the active instances of a bounded collection
(10_state R152, R160). -/
def mapFirst {α : Type} {n : Nat} (m : Nat) (f : α → α) (v : Vector α n) : Vector α n :=
  Vector.ofFn fun k => if k.val < m then f v[k] else v[k]

/-- The active instances in registration order (10_state R152, R160). -/
def activeSlots {α : Type} {n : Nat} (m : Nat) (v : Vector α n) : List α := v.toList.take m

/-! ## Random draws -/

/-- `Draw(n)`: an answer in `[0, n)` (10_state R106). An answer the environment has fixed is used up first; else the
number is a FREE VALUE (log 5). Either is reduced modulo `n`, so the answer is in range. -/
def draw (n : Nat) (o : Oracle) : Nat × Oracle :=
  match o.answers with
  | a :: as => (a % n, { o with answers := as })
  | [] => (Config.freeDraw o.count % n, { o with count := o.count + 1 })

/-! ## Units -/

/-- Replace GBK channel `g` (10_state R146). -/
def State.setGbk (s : State) (g : Nat) (bk : BeatKeeper) : State := { s with gbk := s.gbk.set g bk }

/-- Replace range unit `r` (10_state R150-R154). -/
def State.setRange (s : State) (r : Nat) (R : RangeUnit) : State := { s with ranges := s.ranges.set r R }

/-- Replace SPC unit `u` (10_state R160-R165). -/
def State.setSpc (s : State) (u : Nat) (S : SpcUnit) : State := { s with spc := s.spc.set u S }

/-- The frame after `FrameWrite` of these colours from pixel `i` on (43_range_update R520). -/
def State.writeFrame (s : State) (i : Nat) (cs : List Color) : State := { s with mem := writePixels s.mem i cs }

/-! ## Errors: the BKC's only exceptions -/

/-- The three assignments of `raise Error(code, info)` (60_exceptions R710): the sticky bit, `ERR_CODE`, `ERR_INFO`.
This is all of it when the Host raises the error. -/
def State.recordError (s : State) (e : ErrCode) (info : Word) : State :=
  { s with errs := s.errs ||| e.bit, errCode := BitVec.ofNat 4 e.num, errInfo := info }

/-- A command ends: `PHASE <- IDLE` (10_state R113). -/
def State.finish (s : State) : State := { s with phase := .idle }

/-- `raise Error(code, word)` by the Engine's EXEC step: the error is recorded with the command word and the command ends
with no other effect (60_exceptions R710). -/
def State.engineError (s : State) (e : ErrCode) : State := (s.recordError e s.latch.word).finish

/-- A write to `STATUS` clears the error bits written 1; `ERR_INFO` and `ERR_CODE` stay (45_system R613, 60_exceptions R712). -/
def State.clearErrors (s : State) (v : Word) : State := { s with errs := s.errs &&& ~~~statusClearMask v }

/-! ## Accepting a command and flushing -/

/-- An accepted `CMD` write fills the latch and sets `PHASE <- EXEC` (10_state R112, R113). -/
def State.acceptCommand (s : State) (word : Word) : State :=
  { s with latch := { word := word, a := s.args, mode := s.dbgMode }, phase := .exec }

/-- `Emit(Show)`, its count, and the wait (43_range_update R500, R521; 70_reset R811). -/
def State.emitShow (s : State) : State :=
  { s with showReq := true, flushCnt := s.flushCnt + 1, phase := .waitShow }

/-- `Emit(SpcShow(u))` of a unit whose new content is `S`, its count, and the wait (44_single_pixel R560). -/
def State.emitSpcShow (s : State) (u : Nat) (S : SpcUnit) : State :=
  { s with spc := s.spc.set u { S with showReq := true }, spcFlushCnt := s.spcFlushCnt + 1, phase := .waitSpc u }

/-- The end of a flush: an update in dry-run mode ends at once, in any other mode it emits and waits
(10_state R123, 43_range_update R521). -/
def State.showUnlessDryRun (s : State) : State := if s.latch.mode = .dryRun then s.finish else s.emitShow

/-- The same for SPC unit `u` (44_single_pixel R560). -/
def State.spcShowUnlessDryRun (s : State) (u : Nat) (S : SpcUnit) : State :=
  if s.latch.mode = .dryRun then (s.setSpc u S).finish else s.emitSpcShow u S

/-- The wait of a strip flush ends: `show_req <- 0`, `PHASE <- IDLE` (70_reset R811). -/
def State.endShow (s : State) : State := { s with showReq := false, phase := .idle }

/-- The wait of an SPC flush ends (70_reset R811). -/
def State.endSpcShow (s : State) (u : Nat) (S : SpcUnit) : State :=
  { s with spc := s.spc.set u { S with showReq := false }, phase := .idle }

end Sys2Proof.Machine
end

