-- ==== Sys2Proof/Machine/Operands.lean ====
section
/-! DEFINITION. Every operand form: the fields of the latched argument registers (30_encoding R307), the unit a command
names (R311), and the legality of operand values (R317). -/

namespace Sys2Proof.Machine

open Sys2Proof

/-! ## Fields of the latched arguments (30_encoding R307) -/

/-- Bits `[15:0]` of an argument: offset, starting offset or fade factor. -/
def lowHalf (a : Word) : Half := a.extractLsb' 0 16

/-- Bits `[31:16]` of an argument: size or trail length. -/
def highHalf (a : Word) : Half := a.extractLsb' 16 16

/-! ## The unit named (30_encoding R311): check (3) of 60_exceptions R715 -/

/-- Run a command on GBK channel `g`; `Error(UNIT)` if `g >= NUM_GBK`. -/
def withGbk (g : Nat) (s : State) (run : BeatKeeper → Out) : Out :=
  match s.gbk[g]? with
  | some bk => run bk
  | none => .next (s.engineError .unit)

/-- Run RANGE_CFG on range `r`; `Error(UNIT)` if `r >= NUM_RANGES`. -/
def withRange (r : Nat) (s : State) (run : RangeUnit → Out) : Out :=
  match s.ranges[r]? with
  | some R => run R
  | none => .next (s.engineError .unit)

/-- Run any other range command on range `r`; `Error(UNIT)` if `r >= NUM_RANGES` or the range is unconfigured. -/
def withConfiguredRange (r : Nat) (s : State) (run : RangeUnit → Out) : Out :=
  withRange r s fun R => if R.size = 0 then .next (s.engineError .unit) else run R

/-- Run an SPC command on unit `u`; `Error(UNIT)` if `u >= NUM_SPC`. -/
def withSpc (u : Nat) (s : State) (run : SpcUnit → Out) : Out :=
  match s.spc[u]? with
  | some S => run S
  | none => .next (s.engineError .unit)

/-! ## Legal operand values (30_encoding R317): check (4) of 60_exceptions R715 -/

/-- Run a command whose operand values are legal when `legal` holds; else `Error(ARG)`. -/
def withLegal (legal : Bool) (s : State) (run : Out) : Out :=
  if legal then run else .next (s.engineError .arg)

/-- BLEND: the Q1.16 gamma is at most `0x10000`. -/
def legalGamma (g : Word) : Bool := decide (g.toNat ≤ 0x10000)

/-- RANGE_CFG: the size is not 0 and the interval ends inside the strip; the sum is not truncated (42_range_setup R462). -/
def legalInterval (stripLen : Nat) (off sz : Half) : Bool := decide (sz ≠ 0 ∧ off.toNat + sz.toNat ≤ stripLen)

/-- RANGE_ADD_RANDOM: `COUNT` is at most `RAND_HIST`. -/
def legalCount (count : Nat) : Bool := decide (count ≤ Config.randHist)

/-- SPC_ADD_PWAVE: `HALF` is not 0. -/
def legalHalf (half : Nat) : Bool := decide (half ≠ 0)

end Sys2Proof.Machine
end

