-- ==== Sys2Proof/Machine/Aperture.lean ====
section
/-! DEFINITION. The register aperture: the address map (20_memory R202) and the host's accesses (45_system R610-R613). -/

namespace Sys2Proof.Machine

open Sys2Proof

/-- What stands at a word offset of the aperture (20_memory R202). -/
inductive Reg where
  | id
  | param
  | ctrl
  | status
  | cmd
  | arg (k : Fin 4)
  | result
  | now
  | errInfo
  | errCode
  | flushCnt
  | writeCnt
  | spcFlushCnt
  | gbk (g word : Nat)
  | range (r word : Nat)
  | spc (u word : Nat)
  | frame (i : Nat)
  | unmapped
deriving DecidableEq, Repr

/-- The blocks above the global registers (20_memory R202): which unit, and which word of its block. -/
def regOfBlock (off : Nat) : Reg :=
  if 0x040 ≤ off ∧ off < 0x0C0 then .gbk ((off - 0x040) / 16) ((off - 0x040) % 16 / 4)
  else if 0x100 ≤ off ∧ off < 0x300 then .range ((off - 0x100) / 64) ((off - 0x100) % 64 / 4)
  else if 0x300 ≤ off ∧ off < 0x400 then .spc ((off - 0x300) / 32) ((off - 0x300) % 32 / 4)
  else if Config.frameBase ≤ off ∧ off < Config.apertureSize then .frame ((off - Config.frameBase) / 4)
  else .unmapped

/-- The address map (20_memory R202) at an offset that is a multiple of 4. -/
def regOf (off : Nat) : Reg :=
  match off with
  | 0x000 => .id
  | 0x004 => .param
  | 0x008 => .ctrl
  | 0x00C => .status
  | 0x010 => .cmd
  | 0x014 => .arg 0
  | 0x018 => .arg 1
  | 0x01C => .arg 2
  | 0x020 => .arg 3
  | 0x024 => .result
  | 0x028 => .now
  | 0x02C => .errInfo
  | 0x030 => .errCode
  | 0x034 => .flushCnt
  | 0x038 => .writeCnt
  | 0x03C => .spcFlushCnt
  | _ => regOfBlock off

/-! ## What a register reads as -/

/-- Two halves of a readback word: the first in bits 15:0, the second in 31:16 (10_state R156). -/
def twoHalves (lo hi : Half) : Word := hi ++ lo

/-- The constant of `ID` (10_state R120). -/
def idValue : Word := 0x424B4301

/-- `PARAM` (10_state R121). -/
def paramValue (s : State) : Word :=
  BitVec.ofNat 16 s.stripLen ++ (0 : BitVec 4) ++ BitVec.ofNat 4 s.numGbk ++ BitVec.ofNat 4 s.numSpc ++
    BitVec.ofNat 4 s.numRanges

/-- `ARGk` (10_state R110). -/
def argValue (a : Args) (k : Fin 4) : Word :=
  match k with
  | 0 => a.a0
  | 1 => a.a1
  | 2 => a.a2
  | 3 => a.a3

/-- The GBK readback block: `GBK_DUR`, `GBK_START`, `GBK_CUM` and a zero word (10_state R146). -/
def gbkWord (bk : BeatKeeper) (word : Nat) : Word :=
  match word with
  | 0 => bk.dur
  | 1 => bk.start
  | 2 => bk.cum
  | _ => 0

/-- `RSTAT` (10_state R156). -/
def rstat (R : RangeUnit) : Word :=
  let rnd : BitVec 13 :=
    if R.rndAct then
      BitVec.ofNat 3 R.rnd.cur.val ++ (BitVec.ofNat 4 R.rnd.len.val ++ (BitVec.ofNat 4 R.rnd.count.val ++ (1 : BitVec 2)))
    else 0
  let pulse : BitVec 2 := if R.pulseAct then R.pulse.level ++ (1 : BitVec 1) else 0
  (rnd ++ pulse ++ BitVec.ofNat 4 R.nsnake.val).setWidth 32

/-- The head field of Snake slot `k`; 0 in an inactive slot (10_state R156). -/
def headField (R : RangeUnit) (k : Fin Config.snakeCap) : Half := if k.val < R.nsnake.val then R.snake[k].head else 0

/-- The history field `j`; 0 when the Random effect is inactive (10_state R156). -/
def histField (R : RangeUnit) (j : Fin Config.randHist) : Half := if R.rndAct then R.rnd.hist[j] else 0

/-- The range readback block (10_state R156). -/
def rangeWord (R : RangeUnit) (word : Nat) : Word :=
  match word with
  | 0 => twoHalves R.offset R.size
  | 1 => rstat R
  | 2 => twoHalves (headField R 0) (headField R 1)
  | 3 => twoHalves (headField R 2) (headField R 3)
  | 4 => twoHalves (histField R 0) (histField R 1)
  | 5 => twoHalves (histField R 2) (histField R 3)
  | 6 => twoHalves (histField R 4) (histField R 5)
  | 7 => twoHalves (histField R 6) (histField R 7)
  | _ => 0

/-- The code of a pattern kind (10_state R160). -/
def kindCode : PatKind → BitVec 2
  | .none => 0
  | .solid => 1
  | .blink => 2
  | .pwave => 3

/-- The kind field of pattern slot `j`; 0 in an inactive slot (10_state R166). -/
def kindField (S : SpcUnit) (j : Fin Config.spcPatCap) : BitVec 2 :=
  if j.val < S.npat.val then kindCode S.pat[j].kind else 0

/-- The phase field of pattern slot `j`; 0 in an inactive or Solid slot (10_state R166). -/
def phaseField (S : SpcUnit) (j : Fin Config.spcPatCap) : BitVec 12 :=
  if j.val < S.npat.val then
    match S.pat[j].kind with
    | .none => 0
    | .solid => 0
    | .blink => S.pat[j].phase
    | .pwave => S.pat[j].phase
  else 0

/-- `SSTAT` (10_state R166). -/
def sstat (S : SpcUnit) : Word := (kindField S 1 ++ kindField S 0 ++ (0 : BitVec 2) ++ BitVec.ofNat 2 S.npat.val).setWidth 32

/-- The SPC readback block (10_state R166). -/
def spcWord (S : SpcUnit) (word : Nat) : Word :=
  match word with
  | 0 => S.pixel
  | 1 => sstat S
  | 2 => (phaseField S 0).setWidth 32
  | 3 => (phaseField S 1).setWidth 32
  | _ => 0

/-- The value of a register as 10_state defines it (45_system R611); 0 where nothing exists (20_memory R203). -/
def regValue (s : State) : Reg → Word
  | .id => idValue
  | .param => paramValue s
  | .ctrl => (modeBits s.dbgMode).setWidth 32
  | .status => s.status
  | .cmd => 0
  | .arg k => argValue s.args k
  | .result => s.result
  | .now => s.nowMs
  | .errInfo => s.errInfo
  | .errCode => s.errCode.setWidth 32
  | .flushCnt => s.flushCnt
  | .writeCnt => s.writeCnt
  | .spcFlushCnt => s.spcFlushCnt
  | .gbk g word => (s.gbk[g]?).elim 0 (gbkWord · word)
  | .range r word => (s.ranges[r]?).elim 0 (rangeWord · word)
  | .spc u word => (s.spc[u]?).elim 0 (spcWord · word)
  | .frame i => if i < s.stripLen then s.frame i else 0
  | .unmapped => 0

/-- The registers the Engine writes, whose reads while `BUSY = 1` have any value (20_memory R208). Reserved words and
absent units read 0 at all times (R203); the frame view counts whole (DEDUCED, safe, log 7). -/
def engineWritten (s : State) : Reg → Bool
  | .id => false
  | .param => false
  | .ctrl => false
  | .status => false
  | .cmd => false
  | .arg _ => false
  | .result => true
  | .now => false
  | .errInfo => true
  | .errCode => true
  | .flushCnt => true
  | .writeCnt => true
  | .spcFlushCnt => true
  | .gbk g word => decide (g < s.numGbk ∧ word < 3)
  | .range r word => decide (r < s.numRanges ∧ word < 8)
  | .spc u word => decide (u < s.numSpc ∧ word < 4)
  | .frame _ => true
  | .unmapped => false

/-! ## The host's accesses -/

/-- A host access is well-formed when its size is 4 and its offset a multiple of 4 (20_memory R201). -/
def wellFormedAccess (off : Nat) (size : AccSize) : Bool := size == .b4 && off % 4 == 0

/-- Write of `v` to `CTRL` (45_system R612). -/
def writeCtrl (v : Word) (s : State) : State :=
  match modeOfBits (v.extractLsb' 0 2) with
  | some m => { s with dbgMode := m }
  | none => s.recordError .arg v

/-- Write of `v` to `CMD`: accepted when idle, else dropped with `Error(BUSY)` (10_state R113). -/
def writeCmd (v : Word) (s : State) : State := if s.busy then s.recordError .busy v else s.acceptCommand v

/-- Write of `v` to `ARGk`, at any time (45_system R610). -/
def writeArg (k : Fin 4) (v : Word) (s : State) : State :=
  match k with
  | 0 => { s with args := { s.args with a0 := v } }
  | 1 => { s with args := { s.args with a1 := v } }
  | 2 => { s with args := { s.args with a2 := v } }
  | 3 => { s with args := { s.args with a3 := v } }

/-- A well-formed host write (45_system R610): every other register ignores it. -/
def writeReg (v : Word) (s : State) : Reg → State
  | .id => s
  | .param => s
  | .ctrl => writeCtrl v s
  | .status => s.clearErrors v
  | .cmd => writeCmd v s
  | .arg k => writeArg k v s
  | .result => s
  | .now => s
  | .errInfo => s
  | .errCode => s
  | .flushCnt => s
  | .writeCnt => s
  | .spcFlushCnt => s
  | .gbk _ _ => s
  | .range _ _ => s
  | .spc _ _ => s
  | .frame _ => s
  | .unmapped => s

/-- A well-formed host read (45_system R611): the register's value, or a FREE VALUE for an Engine-written register while
`BUSY = 1` (20_memory R208; log 6). It changes only the model's own fields. -/
def readReg (s : State) (reg : Reg) : State :=
  if s.busy && engineWritten s reg then { s with rdata := Config.freeRead s.freeReads, freeReads := s.freeReads + 1 }
  else { s with rdata := regValue s reg }

/-- The host's write move: ignored while `rst_n` is low (70_reset R800); an access that is not well-formed raises
`Error(ACC, off)` (20_memory R205); an offset outside the aperture is no access to the BKC (log 11). -/
def hostWrite (off : Nat) (size : AccSize) (v : Word) (s : State) : Out :=
  if Config.apertureSize ≤ off then .fault (.outsideAperture off)
  else if !s.rstN then .next s
  else if wellFormedAccess off size then .next (writeReg v s (regOf off))
  else .next (s.recordError .acc (BitVec.ofNat 32 off))

/-- The host's read move: 0 while `rst_n` is low (70_reset R800); an access that is not well-formed returns 0 and raises
`Error(ACC, off)` (20_memory R205). -/
def hostRead (off : Nat) (size : AccSize) (s : State) : Out :=
  if Config.apertureSize ≤ off then .fault (.outsideAperture off)
  else if !s.rstN then .next { s with rdata := 0 }
  else if wellFormedAccess off size then .next (readReg s (regOf off))
  else .next { s.recordError .acc (BitVec.ofNat 32 off) with rdata := 0 }

end Sys2Proof.Machine
end

