-- ==== Sys2Proof/Machine/Beat.lean ====
section
/-! DEFINITION. The BeatKeeper commands BK_RESET and BK_POLL (40_beatkeeper). -/

namespace Sys2Proof.Machine

open Sys2Proof

/-- BK_RESET: `BkReset(GBK[g], A[3])` (40_beatkeeper R410). -/
def execBkReset (g : Nat) (s : State) : Out :=
  withGbk g s fun _ => .next (s.setGbk g (bkReset s.nowMs s.latch.a.a3)).finish

/-- BK_POLL: `RESULT <- Poll(GBK[g])` (40_beatkeeper R412). -/
def execBkPoll (g : Nat) (s : State) : Out :=
  withGbk g s fun bk => .next { (s.setGbk g (polled s.nowMs bk)).finish with result := beats s.nowMs bk }

end Sys2Proof.Machine
end

