-- ==== Sys2Proof/Machine/Blender.lean ====
section
/-! DEFINITION. The colour command BLEND (41_color R440). -/

namespace Sys2Proof.Machine

open Sys2Proof

/-- BLEND: `RESULT <- Blend(A[0], A[1], A[2], 0x10000)`; `Error(ARG)` if the gamma is above 1 (41_color R440). -/
def execBlend (s : State) : Out :=
  withLegal (legalGamma s.latch.a.a2) s
    (.next { s.finish with result := blend s.latch.a.a0 s.latch.a.a1 s.latch.a.a2.toNat 0x10000 })

end Sys2Proof.Machine
end

