-- ==== Sys2Proof/Machine/RangeSetup.lean ====
section
/-! DEFINITION. RANGE_CFG, RANGE_CLEAR and the registration of effects (42_range_setup). -/

namespace Sys2Proof.Machine

open Sys2Proof

/-- A range with no active effect; the slot contents stay and are read by no rule (42_range_setup R462, R465). -/
def dropEffects (R : RangeUnit) : RangeUnit := { R with nsnake := 0, pulseAct := false, rndAct := false }

/-- `OwnsStrip(r)` (10_state R151). -/
def ownsStrip (stripLen : Nat) (R : RangeUnit) : Bool := decide (R.offset = 0 ∧ R.size.toNat = stripLen)

/-- RANGE_CFG: set offset and size and drop the effects (42_range_setup R462). -/
def execRangeCfg (r : Nat) (s : State) : Out :=
  withRange r s fun R =>
    withLegal (legalInterval s.stripLen (lowHalf s.latch.a.a0) (highHalf s.latch.a.a0)) s
      (.next (s.setRange r
        { dropEffects R with offset := lowHalf s.latch.a.a0, size := highHalf s.latch.a.a0 }).finish)

/-- The frame all black (42_range_setup R465). -/
def State.blackFrame (s : State) : State := s.writeFrame 0 (List.replicate s.stripLen black)

/-- RANGE_CLEAR: drop the effects, and black the frame when the range owns the strip; no flush (42_range_setup R465). -/
def execRangeClear (r : Nat) (s : State) : Out :=
  withConfiguredRange r s fun R =>
    let s' := s.setRange r (dropEffects R)
    .next (if ownsStrip s.stripLen R then s'.blackFrame else s').finish

/-- The Snake that RANGE_ADD_SNAKE registers (42_range_setup R470): its head starts at `start mod size`. -/
def newSnake (now : Word) (a : Args) (dir : Dir) (size : Half) : Snake :=
  { color := a.a0, start := lowHalf a.a1, dir := dir, len := highHalf a.a1, fade := lowHalf a.a2,
    bk := bkReset now a.a3, head := BitVec.ofNat 16 ((lowHalf a.a1).toNat % size.toNat) }

/-- Append a Snake; a full collection drops it silently (42_range_setup R457, R470). -/
def addSnake (sn : Snake) (R : RangeUnit) : RangeUnit :=
  if h : R.nsnake.val < Config.snakeCap then
    { R with snake := R.snake.set R.nsnake.val sn h, nsnake := ⟨R.nsnake.val + 1, Nat.succ_lt_succ h⟩ }
  else R

/-- RANGE_ADD_SNAKE (42_range_setup R470). -/
def execRangeAddSnake (r : Nat) (dir : Dir) (s : State) : Out :=
  withConfiguredRange r s fun R =>
    .next (s.setRange r (addSnake (newSnake s.nowMs s.latch.a dir R.size) R)).finish

/-- Register the Pulse, off; a second one is dropped silently (42_range_setup R475). -/
def addPulse (p : Pulse) (R : RangeUnit) : RangeUnit :=
  if R.pulseAct then R else { R with pulse := p, pulseAct := true }

/-- RANGE_ADD_PULSE (42_range_setup R475). -/
def execRangeAddPulse (r : Nat) (s : State) : Out :=
  withConfiguredRange r s fun R =>
    .next (s.setRange r
      (addPulse { color := s.latch.a.a0, bk := bkReset s.nowMs s.latch.a.a3, level := 0 } R)).finish

/-- The Random instance that RANGE_ADD_RANDOM registers: an empty history (42_range_setup R480). -/
def newRnd (now : Word) (a : Args) (count : Nat) : Rnd :=
  { fg := a.a0, bg := a.a1, count := Fin.ofNat (Config.randHist + 1) count, bk := bkReset now a.a3,
    hist := Vector.replicate Config.randHist 0, len := 0, cur := 0 }

/-- Register the Random effect; a second one is dropped silently (42_range_setup R480). -/
def addRandom (x : Rnd) (R : RangeUnit) : RangeUnit :=
  if R.rndAct then R else { R with rnd := x, rndAct := true }

/-- RANGE_ADD_RANDOM: `COUNT > 8` is `Error(ARG)`, tested before the capacity (42_range_setup R480). -/
def execRangeAddRandom (r count : Nat) (s : State) : Out :=
  withConfiguredRange r s fun R =>
    withLegal (legalCount count) s
      (.next (s.setRange r (addRandom (newRnd s.nowMs s.latch.a count) R)).finish)

end Sys2Proof.Machine
end

