-- ==== Sys2Proof/Machine/RangeUpdate.lean ====
section
/-! DEFINITION. RANGE_UPDATE: poll, throttle, advance, compose, write and flush (43_range_update). -/

namespace Sys2Proof.Machine

open Sys2Proof

/-! ## Snake (43_range_update R505-R508) -/

/-- `SnakeAdvance(sn, b, N)`: the head moves `b` steps in the Snake's direction, modulo `N` (R505). -/
def snakeAdvance (b N : Nat) (sn : Snake) : Snake :=
  match sn.dir with
  | .cw => { sn with head := BitVec.ofNat 16 ((sn.head.toNat + b % N) % N) }
  | .ccw => { sn with head := BitVec.ofNat 16 ((sn.head.toNat + N - b % N) % N) }

/-- `Dist(i, sn, N)`: the steps in the Snake's direction from range pixel `i` to the head (R506). -/
def snakeDist (i N : Nat) (sn : Snake) : Nat :=
  match sn.dir with
  | .cw => (sn.head.toNat + N - i) % N
  | .ccw => (i + N - sn.head.toNat) % N

/-- `SnakeGamma(d, F, N)` as the fraction `(gn, gd)` (R507); the subtraction is clamped at 0. -/
def snakeGamma (d F N : Nat) : Nat × Nat :=
  if d = 0 then (1, 1) else (256 * (N - 1) - F * d, 256 * (N - 1))

/-- `SnakeContrib(c, i, sn, N)` (R508). -/
def snakeContrib (i N : Nat) (c : Color) (sn : Snake) : Color :=
  let d := snakeDist i N sn
  if d < sn.len.toNat then
    let g := snakeGamma d sn.fade.toNat N
    blend c sn.color g.1 g.2
  else c

/-! ## Pulse (43_range_update R510, R511) -/

/-- `PulseAdvance(p, b)`: the level plus `b`, modulo 2 (R510). -/
def pulseAdvance (b : Nat) (p : Pulse) : Pulse := { p with level := BitVec.ofNat 1 (p.level.toNat + b) }

/-- `PulseContrib(c, p)` (R511). -/
def pulseContrib (c : Color) (p : Pulse) : Color := if p.level ≠ 0 then blend c p.color 1 1 else c

/-! ## Random (43_range_update R512-R514) -/

/-- Draw `m` indices below `N` into ring slots `base, base + 1, ...` modulo `K`, in this order (R512). -/
def drawInto (K N : Nat) : Nat → Nat → Vector Half Config.randHist → Oracle → Vector Half Config.randHist × Oracle
  | 0, _, hist, o => (hist, o)
  | m + 1, base, hist, o =>
    let d := draw N o
    drawInto K N m (base + 1) (hist.setIfInBounds (base % K) (BitVec.ofNat 16 d.1)) d.2

/-- `RandomAdvance(rnd, b, N)` (R512); an instance with `count = 0` is inert (R513). -/
def randomAdvance (b N : Nat) (x : Rnd) (o : Oracle) : Rnd × Oracle :=
  if h : x.count.val = 0 then (x, o)
  else
    let K := x.count.val
    let m := min b K
    let drawn := drawInto K N m (x.cur.val + (b - m)) x.hist o
    ({ x with
        hist := drawn.1
        cur := ⟨(x.cur.val + b) % K,
          Nat.lt_of_lt_of_le (Nat.mod_lt _ (Nat.pos_of_ne_zero h)) (Nat.le_of_lt_succ x.count.isLt)⟩
        len := ⟨min (x.len.val + b) K, Nat.lt_of_le_of_lt (Nat.min_le_right _ _) x.count.isLt⟩ }, drawn.2)

/-- `i in Lit(rnd)`, the set `hist[j]` for `j < len` (10_state R154). -/
def lit (i : Nat) (x : Rnd) : Bool := (activeSlots x.len.val x.hist).any fun h => h.toNat == i

/-- `RandomContrib(c, i, rnd)` (R514). -/
def randomContrib (i : Nat) (c : Color) (x : Rnd) : Color :=
  if x.count.val = 0 then c else if lit i x then overwrite c x.fg else overwrite c x.bg

/-! ## The four steps of an update (43_range_update R500) -/

/-- The Snake with its BeatKeeper polled (R501). -/
def Snake.polled (now : Word) (sn : Snake) : Snake := { sn with bk := Machine.polled now sn.bk }

/-- The Pulse with its BeatKeeper polled (R501). -/
def Pulse.polled (now : Word) (p : Pulse) : Pulse := { p with bk := Machine.polled now p.bk }

/-- The Random instance with its BeatKeeper polled (R501). -/
def Rnd.polled (now : Word) (x : Rnd) : Rnd := { x with bk := Machine.polled now x.bk }

/-- Step 1: every active instance's BeatKeeper polled (R501). -/
def pollRange (now : Word) (R : RangeUnit) : RangeUnit :=
  { R with
    snake := mapFirst R.nsnake.val (Snake.polled now) R.snake
    pulse := if R.pulseAct then R.pulse.polled now else R.pulse
    rnd := if R.rndAct then R.rnd.polled now else R.rnd }

/-- Some active instance reports a beat; if none does, the update is throttled (R502). -/
def rangeHasBeat (now : Word) (R : RangeUnit) : Bool :=
  (activeSlots R.nsnake.val R.snake).any (fun sn => beats now sn.bk != 0) ||
    (R.pulseAct && beats now R.pulse.bk != 0) || (R.rndAct && beats now R.rnd.bk != 0)

/-- Steps 1 and 2: every active instance polled and advanced by its own beat count (R500, R503), with the draws made. -/
def advanceRange (now : Word) (R : RangeUnit) (o : Oracle) : RangeUnit × Oracle :=
  let N := R.size.toNat
  let rnd := if R.rndAct then randomAdvance (beats now R.rnd.bk).toNat N (R.rnd.polled now) o else (R.rnd, o)
  ({ R with
      snake := mapFirst R.nsnake.val (fun sn => snakeAdvance (beats now sn.bk).toNat N (sn.polled now)) R.snake
      pulse := if R.pulseAct then pulseAdvance (beats now R.pulse.bk).toNat (R.pulse.polled now) else R.pulse
      rnd := rnd.1 }, rnd.2)

/-- Step 3, `Compose(R, i)`: black, then the Snakes in slot order, then the Pulse, then the Random effect (R515, R516). -/
def compose (R : RangeUnit) (i : Nat) : Color :=
  let c1 := (activeSlots R.nsnake.val R.snake).foldl (snakeContrib i R.size.toNat) black
  let c2 := if R.pulseAct then pulseContrib c1 R.pulse else c1
  if R.rndAct then randomContrib i c2 R.rnd else c2

/-- The composed colours of a range's pixels `0 .. size - 1` (R500 step 3). -/
def composeAll (R : RangeUnit) : List Color := (List.range R.size.toNat).map (compose R)

/-- RANGE_UPDATE (43_range_update R500). -/
def execRangeUpdate (r : Nat) (s : State) : Out :=
  withConfiguredRange r s fun R =>
    if rangeHasBeat s.nowMs R then
      let adv := advanceRange s.nowMs R s.rng
      let written := (s.setRange r adv.1).writeFrame R.offset.toNat (composeAll adv.1)
      .next { written with rng := adv.2, writeCnt := s.writeCnt + 1 }.showUnlessDryRun
    else .next (s.setRange r (pollRange s.nowMs R)).finish

end Sys2Proof.Machine
end

