-- ==== Sys2Proof/Machine/SinglePixel.lean ====
section
/-! DEFINITION. The Single-Pixel Controller commands and the pattern sub-rules (44_single_pixel). -/

namespace Sys2Proof.Machine

open Sys2Proof

/-! ## Patterns (44_single_pixel R561-R564) -/

/-- `PatPoll(p)`: the beat count; a Solid pattern has no beat (R561). -/
def patBeats (now : Word) (p : Pattern) : Word :=
  match p.kind with
  | .none => 0
  | .solid => 0
  | .blink => beats now p.bk
  | .pwave => beats now p.bk

/-- `PatPoll(p)`: the pattern it leaves (R561). -/
def patPolled (now : Word) (p : Pattern) : Pattern :=
  match p.kind with
  | .none => p
  | .solid => p
  | .blink => { p with bk := polled now p.bk }
  | .pwave => { p with bk := polled now p.bk }

/-- `PatAdvance(p, b)` (R562). -/
def patAdvance (b : Nat) (p : Pattern) : Pattern :=
  match p.kind with
  | .none => p
  | .solid => p
  | .blink => { p with phase := BitVec.ofNat 12 ((p.phase.toNat + b) % 2) }
  | .pwave => { p with phase := BitVec.ofNat 12 ((p.phase.toNat + b) % (2 * p.half.toNat)) }

/-- The triangular envelope `Tri(q, H)` (R564). -/
def tri (q H : Nat) : Nat := if q ≤ H then q else 2 * H - q

/-- `PatContrib(c, p)` (R563). -/
def patContrib (c : Color) (p : Pattern) : Color :=
  match p.kind with
  | .none => c
  | .solid => overwrite c p.colA
  | .blink => overwrite c (if p.phase = 0 then p.colA else p.colB)
  | .pwave => scale c (tri p.phase.toNat p.half.toNat) p.half.toNat

/-! ## Registration (44_single_pixel R550) -/

/-- Append a pattern to the first free slot; a full unit drops it silently (R550). -/
def addPattern (p : Pattern) (S : SpcUnit) : SpcUnit :=
  if h : S.npat.val < Config.spcPatCap then
    { S with pat := S.pat.set S.npat.val p h, npat := ⟨S.npat.val + 1, Nat.succ_lt_succ h⟩ }
  else S

/-- SPC_CLEAR: drop the patterns and black the pixel; no flush (R551). -/
def execSpcClear (u : Nat) (s : State) : Out :=
  withSpc u s fun S => .next (s.setSpc u { S with npat := 0, pixel := black }).finish

/-- SPC_ADD_SOLID: a Solid pattern, whose BeatKeeper is disabled (R553). -/
def execSpcAddSolid (u : Nat) (s : State) : Out :=
  withSpc u s fun S =>
    .next (s.setSpc u (addPattern
      { kind := .solid, colA := s.latch.a.a0, colB := 0, half := 0, bk := bkReset s.nowMs 0, phase := 0 } S)).finish

/-- SPC_ADD_BLINK (R555). -/
def execSpcAddBlink (u : Nat) (s : State) : Out :=
  withSpc u s fun S =>
    .next (s.setSpc u (addPattern
      { kind := .blink, colA := s.latch.a.a0, colB := s.latch.a.a1, half := 0, bk := bkReset s.nowMs s.latch.a.a3,
        phase := 0 } S)).finish

/-- SPC_ADD_PWAVE: `HALF = 0` is `Error(ARG)`, tested before the capacity; the sub-tick is 50 ms (R557). -/
def execSpcAddPwave (u half : Nat) (s : State) : Out :=
  withSpc u s fun S =>
    withLegal (legalHalf half) s
      (.next (s.setSpc u (addPattern
        { kind := .pwave, colA := 0, colB := 0, half := BitVec.ofNat 11 half, bk := bkReset s.nowMs Config.pwaveTickMs,
          phase := 0 } S)).finish)

/-! ## Update (44_single_pixel R560, R565) -/

/-- Some active pattern reports a beat; if none does, the update is throttled (R560). -/
def spcHasBeat (now : Word) (S : SpcUnit) : Bool :=
  (activeSlots S.npat.val S.pat).any fun p => patBeats now p != 0

/-- Every active pattern polled (R560, R561). -/
def pollSpc (now : Word) (S : SpcUnit) : SpcUnit := { S with pat := mapFirst S.npat.val (patPolled now) S.pat }

/-- Every active pattern polled and advanced by its own beat count (R560-R562). -/
def advanceSpc (now : Word) (S : SpcUnit) : SpcUnit :=
  { S with pat := mapFirst S.npat.val (fun p => patAdvance (patBeats now p).toNat (patPolled now p)) S.pat }

/-- The composed pixel: black, then the active patterns in registration order (R565). -/
def composeSpc (S : SpcUnit) : Color := (activeSlots S.npat.val S.pat).foldl patContrib black

/-- SPC_UPDATE (R560). -/
def execSpcUpdate (u : Nat) (s : State) : Out :=
  withSpc u s fun S =>
    if spcHasBeat s.nowMs S then
      let adv := advanceSpc s.nowMs S
      .next (s.spcShowUnlessDryRun u { adv with pixel := composeSpc adv })
    else .next (s.setSpc u (pollSpc s.nowMs S)).finish

end Sys2Proof.Machine
end

