-- ==== Sys2Proof/Machine/System.lean ====
section
/-! DEFINITION. NOP (45_system R600). -/

namespace Sys2Proof.Machine

open Sys2Proof

/-- NOP: `PHASE <- IDLE` and nothing else (45_system R600). -/
def execNop (s : State) : Out := .next s.finish

end Sys2Proof.Machine
end

