-- ==== Sys2Proof/Machine/Dispatch.lean ====
section
/-! DEFINITION. One arm per command: the EXEC step of a decoded command (10_state R113). -/

namespace Sys2Proof.Machine

open Sys2Proof

/-- The EXEC step of a decoded command: checks (3) and (4) of 60_exceptions R715, then its effect. -/
def exec (i : Instr) (s : State) : Host.Outcome State Fault Refusal :=
  match i with
  | .nop => Sys2Proof.Machine.execNop s
  | .bkReset unit => Sys2Proof.Machine.execBkReset unit s
  | .bkPoll unit => Sys2Proof.Machine.execBkPoll unit s
  | .blend => Sys2Proof.Machine.execBlend s
  | .rangeCfg unit => Sys2Proof.Machine.execRangeCfg unit s
  | .rangeClear unit => Sys2Proof.Machine.execRangeClear unit s
  | .rangeAddSnake unit dir => Sys2Proof.Machine.execRangeAddSnake unit dir s
  | .rangeAddPulse unit => Sys2Proof.Machine.execRangeAddPulse unit s
  | .rangeAddRandom unit count => Sys2Proof.Machine.execRangeAddRandom unit count s
  | .rangeUpdate unit => Sys2Proof.Machine.execRangeUpdate unit s
  | .spcClear unit => Sys2Proof.Machine.execSpcClear unit s
  | .spcAddSolid unit => Sys2Proof.Machine.execSpcAddSolid unit s
  | .spcAddBlink unit => Sys2Proof.Machine.execSpcAddBlink unit s
  | .spcAddPwave unit half => Sys2Proof.Machine.execSpcAddPwave unit half s
  | .spcUpdate unit => Sys2Proof.Machine.execSpcUpdate unit s

end Sys2Proof.Machine
end

