-- ==== Sys2Proof/Machine/Engine.lean ====
section
/-! DEFINITION. The steps of the agents (10_state R100): the Engine's turn, the moves from outside, reset and the outputs. -/

namespace Sys2Proof.Machine

open Sys2Proof

/-- The Engine's EXEC step: checks (1) and (2) of 60_exceptions R715 by the decoder, then the command. -/
def execLatched (s : State) : Out :=
  match decode s.latch.word with
  | .command i => exec i s
  | .undefinedOpcode => .next (s.engineError .opc)
  | .reservedBits => .next (s.engineError .rsv)

/-- The end of an SPC flush wait: enabled when the unit's acknowledge is high (70_reset R811). -/
def endSpcWait (u : Nat) (s : State) : State :=
  match s.spc[u]? with
  | some S => if S.showAck then s.endSpcShow u S else s
  | none => s

/-- The Engine's turn (10_state R113): none while `rst_n` is low (70_reset R800); an EXEC step; the end of a flush wait
whose acknowledge is high (R811); otherwise no step is enabled and nothing changes (log 8). -/
def engineTurn (s : State) : Out :=
  if !s.rstN then .next s
  else
    match s.phase with
    | .idle => .next s
    | .exec => execLatched s
    | .waitShow => .next (if s.showAck then s.endShow else s)
    | .waitSpc u => .next (endSpcWait u s)

/-! ## The strip device's frame port (10_state R104) -/

/-- What the frame port returns for an index: `FRAME[idx]`, or 0 beyond the strip (10_state R104). -/
def State.portPixel (s : State) (idx : Half) : Color := if idx.toNat < s.stripLen then s.frame idx.toNat else 0

/-- What one read beside the Engine step from `s` to `t` returns: the pixel before it or after it (20_memory R212). -/
def readBeside (s t : State) (r : PixelRead) : Color := if r.after then t.portPixel r.idx else s.portPixel r.idx

/-- The Engine's turn with the strip device reading beside it: the turn is as it is without the reads, each read sees its
pixel before or after the turn, and `dev_idx` stays where the last read put it (20_memory R212, 70_reset R815; log 24). -/
def engineTurnScanned (reads : List PixelRead) (s : State) : Out :=
  match engineTurn s with
  | .next t => .next
      { t with scanned := reads.map (readBeside s t), devIdx := (reads.getLast?).elim s.devIdx PixelRead.idx }
  | .fault f => .fault f
  | .refused r => .refused r

/-! ## Reset and the moves -/

/-- The state that `rst_n` low holds (10_state R175, 70_reset R800): every piece of state at its reset value; the inputs,
the parameters and the model's own fields as they are (70_reset R803). -/
def State.heldInReset (s : State) : State :=
  { State.resetWith s.params with
    spc := s.spc.map (fun S => SpcUnit.empty S.showAck)
    rstN := false, nowMs := s.nowMs, showAck := s.showAck, devIdx := s.devIdx
    rng := s.rng, scanned := s.scanned, rdata := s.rdata, freeReads := s.freeReads, agenda := s.agenda }

/-- The device of SPC unit `u` drives its acknowledge (10_state R105). -/
def driveSpcAck (u : Nat) (level : Bool) (s : State) : Out :=
  match s.spc[u]? with
  | some S => .next (s.setSpc u { S with showAck := level })
  | none => .refused (.absentSpcPort u)

/-- One move (10_state R100; log 2). -/
def applyMove (m : Move) (s : State) : Out :=
  match m with
  | .engine => engineTurn s
  | .scan reads => engineTurnScanned reads s
  | .write off size v => hostWrite off size v s
  | .read off size => hostRead off size s
  | .clock t => .next { s with nowMs := t }
  | .draw a => .next { s with rng := { s.rng with answers := s.rng.answers ++ [a] } }
  | .stripAck level => .next { s with showAck := level }
  | .spcAck u level => driveSpcAck u level s
  | .devIdx i => .next { s with devIdx := i }
  | .assertReset => .next s.heldInReset
  | .releaseReset => .next { s with rstN := true }

/-- One step of the machine: the next move of the agenda, or the Engine's turn when the agenda is empty (log 2). -/
def turn (s : State) : Out :=
  match s.agenda with
  | [] => engineTurn s
  | m :: ms => applyMove m { s with agenda := ms }

/-- A command placed as if its `CMD` write had just been accepted, with no other move pending and `rst_n` high, so that
the next step is its EXEC step (10_state R112, R113; log 3, 23). -/
def State.placeCommand (s : State) (word : Word) : State := { s.acceptCommand word with rstN := true, agenda := [] }

/-! ## Outputs -/

/-- The output `dev_pixel` between two steps: `FRAME[dev_idx]`, or 0 beyond the strip (10_state R104). -/
def State.devPixel (s : State) : Color := s.portPixel s.devIdx

/-- The output `spc_pixel_u`, equal to `SPC_PIXEL[u]` (10_state R105). -/
def State.spcPixelOut (s : State) (u : Nat) : Option Color := (s.spc[u]?).map SpcUnit.pixel

end Sys2Proof.Machine
end

