-- ==== Sys2Proof/Machine/Step.lean ====
section
/-! DEFINITION. One step of the machine, and how a command is placed where the next step runs it. -/

namespace Sys2Proof.Machine

open Sys2Proof

/-- One step of the machine (10_state R100, R113). -/
def step (s : State) : Host.Outcome State Fault Refusal := turn s

/-- `s` with a command word, given as an opcode-table row's bits, latched for the very next step (log 3, 23). -/
def State.withFetchWord (s : State) (nbits w : Nat) : State := s.placeCommand (tableWord nbits w)

end Sys2Proof.Machine
end

