-- ==== Sys2Proof/Safety.lean ====
section
/-! DEFINITION. What counts as a safe run: the invariants the spec gives its state, and the words that claims use for an
error, for a valid unit and for legal operands. -/

namespace Sys2Proof.Machine

open Sys2Proof

/-! ## The invariant of the state -/

/-- 10_state R154: `len` in `0..count`, `cur` in `0..count-1` (0 when `count = 0`); while the ring is below its capacity the
cursor is at its end (43_range_update R512, "append while below capacity"); every history slot holds a range index: one that
a draw answered (10_state R106), or the 0 it was registered with (42_range_setup R480). -/
abbrev RndOk (size : Nat) (x : Rnd) : Prop :=
  x.len.val ≤ x.count.val ∧ (x.cur.val < x.count.val ∨ x.cur.val = 0) ∧
    (x.len.val < x.count.val → x.cur.val = x.len.val) ∧ ∀ j : Fin Config.randHist, x.hist[j].toNat < size

/-- 10_state R150, R152, R154: a configured interval lies in the strip, every active head is in the range, and an active
Random instance is in its bounds. -/
abbrev RangeOk (stripLen : Nat) (R : RangeUnit) : Prop :=
  (R.size = 0 ∨ R.offset.toNat + R.size.toNat ≤ stripLen) ∧
    (∀ k : Fin Config.snakeCap, k.val < R.nsnake.val → R.snake[k].head.toNat < R.size.toNat) ∧
    (R.rndAct = true → RndOk R.size.toNat R.rnd)

/-- 10_state R160: an active slot holds one of the three kinds; a Blink's phase is 0 or 1; a Pulse-wave has `half >= 1`,
a 50 ms BeatKeeper and a phase below `2 * half`; a Solid has no beat (44_single_pixel R553). -/
abbrev PatternOk (p : Pattern) : Prop :=
  p.kind ≠ .none ∧ (p.kind = .solid → p.bk.dur = 0) ∧ (p.kind = .blink → p.phase.toNat < 2) ∧
    (p.kind = .pwave → 1 ≤ p.half.toNat ∧ p.phase.toNat < 2 * p.half.toNat ∧ p.bk.dur = Config.pwaveTickMs)

/-- Every active pattern of an SPC unit is in its bounds (10_state R160). -/
abbrev SpcOk (S : SpcUnit) : Prop := ∀ j : Fin Config.spcPatCap, j.val < S.npat.val → PatternOk S.pat[j]

/-- The frame store holds frame bytes only, in canonical form (20_memory R210). -/
abbrev FrameOk (stripLen : Nat) (m : Memory) : Prop :=
  Memory.wf m = true ∧ ∀ c ∈ m, Config.frameBase ≤ c.1 ∧ c.1 < Config.frameBase + 4 * stripLen

/-- A flush request is up exactly while the Engine waits for its acknowledge (10_state R104, R105; 70_reset R811). -/
abbrev HandshakeOk (s : State) : Prop :=
  (s.showReq = true ↔ s.phase = .waitShow) ∧
    ∀ u, ∀ h : u < s.spc.length, (s.spc[u].showReq = true ↔ s.phase = .waitSpc u)

/-- An Engine phase that names an SPC unit names one that exists (10_state R113). -/
def phaseOk (s : State) : Bool :=
  match s.phase with
  | .waitSpc u => decide (u < s.numSpc)
  | .idle => true
  | .exec => true
  | .waitShow => true

/-- `ERR_CODE` is one of the codes 0 to 6, and 0 only when no error bit is set (60_exceptions R708, R710). -/
abbrev ErrorsOk (s : State) : Prop := s.errCode.toNat ≤ 6 ∧ (s.errCode = 0 → s.errs = 0)

/-- The invariant of every step: the bounds 10_state gives its fields, the handshake, and what `rst_n` low holds. -/
structure Inv (s : State) : Prop where
  params : s.params.legal
  ranges : ∀ R ∈ s.ranges, RangeOk s.stripLen R
  spc : ∀ S ∈ s.spc, SpcOk S
  frame : FrameOk s.stripLen s.mem
  handshake : HandshakeOk s
  phase : phaseOk s = true
  errors : ErrorsOk s
  held : s.rstN = false → s = s.heldInReset

/-! ## Words that claims use -/

/-- The state after `raise Error(code, word)` by an EXEC step, written out: bit `7 + code` of `STATUS`, `ERR_CODE`,
`ERR_INFO`, `PHASE`, and nothing else (60_exceptions R710). -/
abbrev afterEngineError (code : Nat) (s : State) : State :=
  { s with errs := s.errs ||| BitVec.twoPow 6 (code - 1), errCode := BitVec.ofNat 4 code, errInfo := s.latch.word
           phase := .idle }

/-- The unit named is valid (30_encoding R311). -/
def unitValid (s : State) : Instr → Prop
  | .nop => True
  | .bkReset g => g < s.numGbk
  | .bkPoll g => g < s.numGbk
  | .blend => True
  | .rangeCfg r => r < s.numRanges
  | .rangeClear r => ∃ R, s.ranges[r]? = some R ∧ R.size ≠ 0
  | .rangeAddSnake r _ => ∃ R, s.ranges[r]? = some R ∧ R.size ≠ 0
  | .rangeAddPulse r => ∃ R, s.ranges[r]? = some R ∧ R.size ≠ 0
  | .rangeAddRandom r _ => ∃ R, s.ranges[r]? = some R ∧ R.size ≠ 0
  | .rangeUpdate r => ∃ R, s.ranges[r]? = some R ∧ R.size ≠ 0
  | .spcClear u => u < s.numSpc
  | .spcAddSolid u => u < s.numSpc
  | .spcAddBlink u => u < s.numSpc
  | .spcAddPwave u _ => u < s.numSpc
  | .spcUpdate u => u < s.numSpc

/-- The operand values are legal (30_encoding R317: "No other operand value is illegal"). -/
def operandsLegal (s : State) : Instr → Prop
  | .nop => True
  | .bkReset _ => True
  | .bkPoll _ => True
  | .blend => s.latch.a.a2.toNat ≤ 0x10000
  | .rangeCfg _ =>
      s.latch.a.a0.toNat / 2 ^ 16 ≠ 0 ∧ s.latch.a.a0.toNat % 2 ^ 16 + s.latch.a.a0.toNat / 2 ^ 16 ≤ s.stripLen
  | .rangeClear _ => True
  | .rangeAddSnake _ _ => True
  | .rangeAddPulse _ => True
  | .rangeAddRandom _ count => count ≤ 8
  | .rangeUpdate _ => True
  | .spcClear _ => True
  | .spcAddSolid _ => True
  | .spcAddBlink _ => True
  | .spcAddPwave _ half => half ≠ 0
  | .spcUpdate _ => True

/-- The Engine is about to take its step: `rst_n` is high and the agenda gives it the turn (log 2). -/
abbrev EngineNext (s : State) : Prop := s.rstN = true ∧ s.agenda = []

/-- If the next move is a well-formed host read at this offset, it returns `v` and changes nothing but the read data. -/
abbrev ReadsAs (s : State) (ms : List Move) (off v : Nat) : Prop :=
  s.agenda = .read off .b4 :: ms → step s = .next { s with agenda := ms, rdata := BitVec.ofNat 32 v }

/-- If the next move is a well-formed host read at this offset, it returns a value that nothing constrains: the model's free
value (log 6). -/
abbrev ReadsFree (s : State) (ms : List Move) (off : Nat) : Prop :=
  s.agenda = .read off .b4 :: ms →
    step s = .next { s with agenda := ms, rdata := Config.freeRead s.freeReads, freeReads := s.freeReads + 1 }

/-- The latched debug mode set to `m` (10_state R112). -/
def State.withLatchedMode (s : State) (m : DbgMode) : State := { s with latch := { s.latch with mode := m } }

/-- A state with everything about flushing set aside: the requests, the wait, the flush counts and the latched mode.
What is left is what dry-run mode preserves (10_state R123). -/
def State.withoutFlush (s : State) : State :=
  { s with showReq := false, phase := .idle, flushCnt := 0, spcFlushCnt := 0
           spc := s.spc.map (fun S => { S with showReq := false }), latch := { s.latch with mode := .off } }

/-- The beats that successive polls at these times report in total (40_beatkeeper R404). -/
def beatTotal (bk : BeatKeeper) : List Word → Nat
  | [] => 0
  | t :: ts => (beats t bk).toNat + beatTotal (polled t bk) ts

/-- The sequential form of a Random advance, one insertion: `hist[cur] <- v; cur <- (cur + 1) mod count;
len <- min(len + 1, count)` (43_range_update R512), on plain numbers. -/
def insertDraw (K : Nat) (ring : List Half × Nat × Nat) (v : Half) : List Half × Nat × Nat :=
  (ring.1.set ring.2.1 v, (ring.2.1 + 1) % K, min (ring.2.2 + 1) K)

end Sys2Proof.Machine
end

