-- ==== Sys2Proof/Certificates/Slice0/Obligations.lean ====
section
/-! DEFINITION. The statements for the provers. The result statements are equations `exec i s = .next t`, so each says that
the command completes, what it writes, and (by the record update) that nothing else changes. -/

section

open Sys2Proof Sys2Proof.Machine

/-! ## Encoding (30_encoding) -/

/-- Decoding the encoding of a well-formed command gives the command back, with every operand at every value; and a word
that decodes to a command is that command's only encoding, and the command is well-formed. -/
def Obligations.DecodeAndEncodeAgree : Prop :=
  (∀ i : Instr, i.wellFormed = true → decode (encode i) = .command i) ∧
  ∀ (w : Word) (i : Instr), decode w = .command i → i.wellFormed = true ∧ encode i = w

/-- 30_encoding R310: a word spells the command of a row exactly when `w & mask = match`; no two rows overlap; every other
`OPC` is undefined; the encoding is `(OPC << 24) | (UNIT << 20) | OPND`. -/
def Obligations.DecodeAgreesWithOpcodeMap : Prop :=
  (∀ w : Word, ∀ j ∈ opcodeMap, (j.row.spells w = true ↔ ∃ i, decode w = .command i ∧ i.row = j.row)) ∧
  (∀ w : Word, ∀ j ∈ opcodeMap, ∀ k ∈ opcodeMap, j.row.spells w = true → k.row.spells w = true → j = k) ∧
  (∀ w : Word, decode w = .undefinedOpcode ↔ ∀ j ∈ opcodeMap, w.toNat / 2 ^ 24 ≠ j.opc) ∧
  (∀ i : Instr, i.wellFormed = true →
    encode i = BitVec.ofNat 32 i.opc <<< 24 ||| BitVec.ofNat 32 i.unitNum <<< 20 ||| BitVec.ofNat 32 i.opnd)

/-- Words written out from 30_encoding R310 and R320 decode to the commands they stand for. -/
def Obligations.SampleWordsDecode : Prop :=
  decode 0x00000000 = .command .nop ∧ decode 0x02700000 = .command (.bkPoll 7) ∧
  decode 0x03000000 = .command .blend ∧ decode 0x15100000 = .command (.rangeUpdate 1) ∧
  decode 0x12000001 = .command (.rangeAddSnake 0 .ccw) ∧ decode 0x14300005 = .command (.rangeAddRandom 3 5) ∧
  decode 0x232007FF = .command (.spcAddPwave 2 2047) ∧ decode 0x03100000 = .reservedBits ∧
  decode 0x05000000 = .undefinedOpcode

/-! ## One step (10_state R113) -/

/-- When it is the Engine's turn in phase EXEC and the latched word decodes to a command, the step is that command's EXEC
step, at the state as it is or with the Engine's own move taken off the agenda. -/
def Obligations.StepRunsDecodedCommand : Prop :=
  ∀ (s : State) (i : Instr) (ms : List Move), s.rstN = true → s.phase = .exec → decode s.latch.word = .command i →
    (s.agenda = [] → step s = exec i s) ∧ (s.agenda = .engine :: ms → step s = exec i { s with agenda := ms })

/-- 30_encoding R315, R316: an undefined opcode raises `Error(OPC, word)`; a defined opcode with a required-zero bit set
raises `Error(RSV, word)`; neither has any other effect. -/
def Obligations.RejectedWordsAreRecorded : Prop :=
  ∀ s : State, EngineNext s → s.phase = .exec →
    ((let opc := s.latch.word.toNat / 2 ^ 24
      (0x04 ≤ opc ∧ opc ≤ 0x0F) ∨ (0x16 ≤ opc ∧ opc ≤ 0x1F) ∨ 0x25 ≤ opc) →
      step s = .next (afterEngineError 1 s)) ∧
    (∀ j ∈ opcodeMap, s.latch.word.toNat / 2 ^ 24 = j.opc → s.latch.word &&& j.row.mask ≠ j.row.matchBits →
      step s = .next (afterEngineError 2 s))

/-- 30_encoding R311: a command that names an invalid unit raises `Error(UNIT, word)` and has no other effect. -/
def Obligations.InvalidUnitIsRecorded : Prop :=
  ∀ (i : Instr) (s : State), ¬ unitValid s i → exec i s = .next (afterEngineError 3 s)

/-- 30_encoding R317: with a valid unit, an illegal operand value raises `Error(ARG, word)` and has no other effect, and no
other operand value is illegal: the command then completes and no error is recorded. -/
def Obligations.IllegalOperandIsRecorded : Prop :=
  ∀ (i : Instr) (s : State), unitValid s i →
    (¬ operandsLegal s i → exec i s = .next (afterEngineError 4 s)) ∧
    (operandsLegal s i →
      ∃ t, exec i s = .next t ∧ t.errs = s.errs ∧ t.errCode = s.errCode ∧ t.errInfo = s.errInfo)

/-- Every command with a valid unit and legal operands answers a next state, which is idle or, for an update, in the wait for
its own flush. (What the command does on the way is said by the statements about each command.) -/
def Obligations.EveryValidCommandCompletes : Prop :=
  ∀ (i : Instr) (s : State), unitValid s i → operandsLegal s i →
    ∃ t, exec i s = .next t ∧
      (t.phase = .idle ∨ (i = .rangeUpdate i.unitNum ∧ t.phase = .waitShow ∧ t.showReq = true) ∨
        (i = .spcUpdate i.unitNum ∧ t.phase = .waitSpc i.unitNum))

/-- NOP changes nothing but `PHASE` (45_system R600). -/
def Obligations.NopOnlyEndsTheCommand : Prop :=
  ∀ s : State, exec .nop s = .next { s with phase := .idle }

/-! ## BeatKeeper (40_beatkeeper) -/

/-- BK_RESET sets the period from `A[3]`, starts at the time sample and zeroes the count, period 0 included
(40_beatkeeper R401, R410). -/
def Obligations.BkResetSetsTheChannel : Prop :=
  ∀ (g : Nat) (s : State), g < s.numGbk →
    exec (.bkReset g) s = .next
      { s with gbk := s.gbk.set g { dur := s.latch.a.a3, start := s.nowMs, cum := 0 }, phase := .idle }

/-- 40_beatkeeper R402 on numbers, through BK_POLL (R412): the four cases of a poll, what it returns and what it leaves. -/
def Obligations.BkPollReturnsTheBeats : Prop :=
  ∀ (g : Nat) (s : State) (bk : BeatKeeper), s.gbk[g]? = some bk →
    ∃ (b : Word) (bk' : BeatKeeper),
      exec (.bkPoll g) s = .next { s with gbk := s.gbk.set g bk', result := b, phase := .idle } ∧
      (let total := (s.nowMs.toNat - bk.start.toNat) / bk.dur.toNat
       if bk.dur = 0 then b = 0 ∧ bk' = bk
       else if s.nowMs.toNat < bk.start.toNat then b = 0 ∧ bk' = { dur := bk.dur, start := s.nowMs, cum := 0 }
       else if total < bk.cum.toNat then b = 0 ∧ bk' = { dur := bk.dur, start := s.nowMs, cum := 0 }
       else b.toNat = total - bk.cum.toNat ∧ bk'.dur = bk.dur ∧ bk'.start = bk.start ∧ bk'.cum.toNat = total)

/-- 40_beatkeeper R403: the second of two polls with the same time returns 0 and changes nothing, and so does a second poll at
any time within the same period. -/
def Obligations.PollIsIdempotent : Prop :=
  ∀ (now later : Word) (bk : BeatKeeper),
    (let bk' := polled now bk
     beats now bk' = 0 ∧ polled now bk' = bk' ∧
     (bk'.start.toNat ≤ later.toNat →
       (later.toNat - bk'.start.toNat) / bk'.dur.toNat = (now.toNat - bk'.start.toNat) / bk'.dur.toNat →
       beats later bk' = 0 ∧ polled later bk' = bk'))

/-- 40_beatkeeper R404: polls at any spacing return in total the whole periods since the reset. -/
def Obligations.PollsCatchUp : Prop :=
  ∀ (d start last : Word) (ts : List Word), d ≠ 0 →
    (start :: (ts ++ [last])).Pairwise (fun t u => t.toNat ≤ u.toNat) →
    beatTotal (bkReset start d) (ts ++ [last]) = (last.toNat - start.toNat) / d.toNat

/-! ## Colour (41_color) -/

/-- 41_color R432: each channel of a blend is the exact weighted source channel, rounded half up, added modulo 256; the
addend is at most the source channel. -/
def Obligations.BlendAddsEachChannel : Prop :=
  ∀ (dst src : Color) (gn gd : Nat), 0 < gd → gn ≤ gd → ∀ k : Chan,
    (ch (blend dst src gn gd) k).toNat =
      ((ch dst k).toNat + (2 * ((ch src k).toNat * gn) + gd) / (2 * gd)) % 256 ∧
    (2 * ((ch src k).toNat * gn) + gd) / (2 * gd) ≤ (ch src k).toNat

/-- 41_color R433: gamma 1 adds the source exactly (onto black it reproduces it), gamma 0 adds nothing. -/
def Obligations.BlendAtGammaOneAndZero : Prop :=
  ∀ (dst src : Color) (gd : Nat), 0 < gd →
    blend 0 src gd gd = src ∧ (∀ k, ch (blend dst src gd gd) k = ch dst k + ch src k) ∧ blend dst src 0 gd = dst

/-- 41_color R434: blends commute. -/
def Obligations.BlendsCommute : Prop :=
  ∀ (d a b : Color) (gn gd hn hd : Nat),
    blend (blend d a gn gd) b hn hd = blend (blend d b hn hd) a gn gd

/-- 41_color R436: `Scale` multiplies each channel by the gamma, rounds half up and never exceeds the channel. -/
def Obligations.ScaleWeighsEachChannel : Prop :=
  ∀ (c : Color) (gn gd : Nat), 0 < gd → gn ≤ gd → ∀ k : Chan,
    (ch (scale c gn gd) k).toNat = (2 * ((ch c k).toNat * gn) + gd) / (2 * gd) ∧
    (ch (scale c gn gd) k).toNat ≤ (ch c k).toNat

/-- BLEND writes the blend of `A[1]` into `A[0]` at gamma `A[2] / 65536` to `RESULT`, and nothing else (41_color R440). -/
def Obligations.BlendCommandWritesResult : Prop :=
  ∀ s : State, s.latch.a.a2.toNat ≤ 0x10000 →
    ∃ c : Color, exec .blend s = .next { s with result := c, phase := .idle } ∧
      ∀ k : Chan, (ch c k).toNat =
        ((ch s.latch.a.a0 k).toNat + (2 * ((ch s.latch.a.a1 k).toNat * s.latch.a.a2.toNat) + 65536) / 131072) % 256

/-! ## Range configuration and registration (42_range_setup) -/

/-- RANGE_CFG with a legal interval sets offset and size from `A[0]`, drops the effects and changes nothing else
(42_range_setup R462). -/
def Obligations.RangeCfgSetsTheInterval : Prop :=
  ∀ (r : Nat) (s : State) (R : RangeUnit), s.ranges[r]? = some R →
    (let off := s.latch.a.a0.toNat % 2 ^ 16
     let sz := s.latch.a.a0.toNat / 2 ^ 16
     sz ≠ 0 → off + sz ≤ s.stripLen →
      exec (.rangeCfg r) s = .next
        { s with
            ranges := s.ranges.set r
              { R with offset := BitVec.ofNat 16 off, size := BitVec.ofNat 16 sz, nsnake := 0, pulseAct := false
                       rndAct := false }
            phase := .idle })

/-- RANGE_CLEAR drops the effects; the frame goes black exactly when the range owns the strip; nothing else changes, and no
flush is emitted (42_range_setup R465). -/
def Obligations.RangeClearDropsEffects : Prop :=
  ∀ (r : Nat) (s : State) (R : RangeUnit), s.ranges[r]? = some R → R.size ≠ 0 → Memory.wf s.mem = true →
    ∃ m : Memory,
      exec (.rangeClear r) s = .next
        { s with
            ranges := s.ranges.set r { R with nsnake := 0, pulseAct := false, rndAct := false }
            mem := m, phase := .idle } ∧
      (R.offset = 0 ∧ R.size.toNat = s.stripLen →
        (∀ i, i < s.stripLen → readPixel m i = 0) ∧
        ∀ a, a < pixelAddr 0 ∨ pixelAddr s.stripLen ≤ a → Memory.get m a = Memory.get s.mem a) ∧
      (¬ (R.offset = 0 ∧ R.size.toNat = s.stripLen) → ∀ a, Memory.get m a = Memory.get s.mem a)

/-- RANGE_ADD_SNAKE fills the first free slot from the arguments, its head at `start mod size`, its BeatKeeper reset at the
time sample; a full collection drops it; nothing else changes (42_range_setup R457, R470). -/
def Obligations.AddSnakeFillsTheNextSlot : Prop :=
  ∀ (r : Nat) (dir : Dir) (s : State) (R : RangeUnit), s.ranges[r]? = some R → R.size ≠ 0 →
    ∃ R' : RangeUnit,
      exec (.rangeAddSnake r dir) s = .next { s with ranges := s.ranges.set r R', phase := .idle } ∧
      (R.nsnake.val = 4 → R' = R) ∧
      ∀ n : Fin 4, R.nsnake.val = n.val →
        { R' with nsnake := R.nsnake, snake := R.snake } = R ∧ R'.nsnake.val = n.val + 1 ∧
        R'.snake[n] =
          { color := s.latch.a.a0, start := BitVec.ofNat 16 (s.latch.a.a1.toNat % 2 ^ 16), dir := dir
            len := BitVec.ofNat 16 (s.latch.a.a1.toNat / 2 ^ 16)
            fade := BitVec.ofNat 16 (s.latch.a.a2.toNat % 2 ^ 16)
            bk := { dur := s.latch.a.a3, start := s.nowMs, cum := 0 }
            head := BitVec.ofNat 16 (s.latch.a.a1.toNat % 2 ^ 16 % R.size.toNat) } ∧
        ∀ k : Fin 4, k ≠ n → R'.snake[k] = R.snake[k]

/-- RANGE_ADD_PULSE registers the Pulse off, with its BeatKeeper reset at the time sample; a second one is dropped; nothing
else changes (42_range_setup R475). -/
def Obligations.AddPulseStartsOff : Prop :=
  ∀ (r : Nat) (s : State) (R : RangeUnit), s.ranges[r]? = some R → R.size ≠ 0 →
    exec (.rangeAddPulse r) s = .next
      { s with
          ranges := s.ranges.set r
            (if R.pulseAct = true then R
             else { R with pulseAct := true
                           pulse := { color := s.latch.a.a0, bk := { dur := s.latch.a.a3, start := s.nowMs, cum := 0 }
                                      level := 0 } })
          phase := .idle }

/-- RANGE_ADD_RANDOM with a legal count registers an empty history; a second one is dropped; nothing else changes
(42_range_setup R480). -/
def Obligations.AddRandomStartsEmpty : Prop :=
  ∀ (r count : Nat) (s : State) (R : RangeUnit), s.ranges[r]? = some R → R.size ≠ 0 → count ≤ 8 →
    ∃ R' : RangeUnit,
      exec (.rangeAddRandom r count) s = .next { s with ranges := s.ranges.set r R', phase := .idle } ∧
      (R.rndAct = true → R' = R) ∧
      (R.rndAct = false →
        { R' with rndAct := false, rnd := R.rnd } = R ∧ R'.rndAct = true ∧
        R'.rnd.fg = s.latch.a.a0 ∧ R'.rnd.bg = s.latch.a.a1 ∧ R'.rnd.count.val = count ∧
        R'.rnd.bk = { dur := s.latch.a.a3, start := s.nowMs, cum := 0 } ∧
        R'.rnd.len.val = 0 ∧ R'.rnd.cur.val = 0 ∧ ∀ j : Fin 8, R'.rnd.hist[j] = 0)

/-! ## Range update (43_range_update) -/

/-- 43_range_update R502: when no active instance reports a beat (none active included), the polls of the active instances
are the only state change. -/
def Obligations.ThrottledUpdateOnlyPolls : Prop :=
  ∀ (r : Nat) (s : State) (R : RangeUnit), s.ranges[r]? = some R → R.size ≠ 0 →
    (∀ k : Fin 4, k.val < R.nsnake.val → beats s.nowMs R.snake[k].bk = 0) →
    (R.pulseAct = true → beats s.nowMs R.pulse.bk = 0) → (R.rndAct = true → beats s.nowMs R.rnd.bk = 0) →
    ∃ R' : RangeUnit,
      exec (.rangeUpdate r) s = .next { s with ranges := s.ranges.set r R', phase := .idle } ∧
      { R' with snake := R.snake, pulse := R.pulse, rnd := R.rnd } = R ∧
      (∀ k : Fin 4, R'.snake[k] =
        if k.val < R.nsnake.val then { R.snake[k] with bk := polled s.nowMs R.snake[k].bk } else R.snake[k]) ∧
      R'.pulse = (if R.pulseAct = true then { R.pulse with bk := polled s.nowMs R.pulse.bk } else R.pulse) ∧
      R'.rnd = (if R.rndAct = true then { R.rnd with bk := polled s.nowMs R.rnd.bk } else R.rnd)

/-- When some active instance reports a beat, an update writes the composed colour of every pixel of the range at the range's
offset, leaves every other byte of the frame alone, counts the write, and flushes unless the latched mode is dry-run
(43_range_update R500, R520, R521). -/
def Obligations.UpdateWritesTheComposedRange : Prop :=
  ∀ (r : Nat) (s : State) (R : RangeUnit), s.ranges[r]? = some R → R.size ≠ 0 → Memory.wf s.mem = true →
    ((∃ k : Fin 4, k.val < R.nsnake.val ∧ beats s.nowMs R.snake[k].bk ≠ 0) ∨
      (R.pulseAct = true ∧ beats s.nowMs R.pulse.bk ≠ 0) ∨ (R.rndAct = true ∧ beats s.nowMs R.rnd.bk ≠ 0)) →
    ∃ (R' : RangeUnit) (m : Memory) (o : Oracle),
      advanceRange s.nowMs R s.rng = (R', o) ∧
      exec (.rangeUpdate r) s = .next
        (if s.latch.mode = .dryRun then
          { s with ranges := s.ranges.set r R', mem := m, rng := o, writeCnt := s.writeCnt + 1, phase := .idle }
        else
          { s with ranges := s.ranges.set r R', mem := m, rng := o, writeCnt := s.writeCnt + 1
                   flushCnt := s.flushCnt + 1, showReq := true, phase := .waitShow }) ∧
      (∀ i, i < R.size.toNat → readPixel m (R.offset.toNat + i) = compose R' i) ∧
      ∀ a, a < pixelAddr R.offset.toNat ∨ pixelAddr (R.offset.toNat + R.size.toNat) ≤ a →
        Memory.get m a = Memory.get s.mem a

/-- Every active instance is advanced by its own beat count, the Random instance by `RandomAdvance` with its draws made; its
setup and every inactive slot are kept, and without an active Random instance nothing is drawn (43_range_update R500, R501,
R503, R510; 42_range_setup R459). -/
def Obligations.UpdateAdvancesEachByItsOwnBeats : Prop :=
  ∀ (now : Word) (R : RangeUnit) (o : Oracle),
    (let R' := (advanceRange now R o).1
     let o' := (advanceRange now R o).2
     { R' with snake := R.snake, pulse := R.pulse, rnd := R.rnd } = R ∧
     (∀ k : Fin 4, R'.snake[k] =
       if k.val < R.nsnake.val then
         snakeAdvance (beats now R.snake[k].bk).toNat R.size.toNat
           { R.snake[k] with bk := polled now R.snake[k].bk }
       else R.snake[k]) ∧
     (R.pulseAct = true →
       R'.pulse.bk = polled now R.pulse.bk ∧ R'.pulse.color = R.pulse.color ∧
       R'.pulse.level.toNat = (R.pulse.level.toNat + (beats now R.pulse.bk).toNat) % 2) ∧
     (R.pulseAct = false → R'.pulse = R.pulse) ∧
     (R.rndAct = true →
       (R'.rnd, o') =
         randomAdvance (beats now R.rnd.bk).toNat R.size.toNat { R.rnd with bk := polled now R.rnd.bk } o ∧
       R'.rnd.bk = polled now R.rnd.bk ∧ R'.rnd.fg = R.rnd.fg ∧ R'.rnd.bg = R.rnd.bg ∧ R'.rnd.count = R.rnd.count) ∧
     (R.rndAct = false → R'.rnd = R.rnd ∧ o' = o))

/-- 43_range_update R505: the head moves exactly `b` steps in the Snake's direction, modulo the range size. -/
def Obligations.SnakeHeadMovesByTheBeats : Prop :=
  ∀ (sn : Snake) (b N : Nat), 0 < N → N < 2 ^ 16 → sn.head.toNat < N →
    (let sn' := snakeAdvance b N sn
     sn'.head.toNat < N ∧ { sn' with head := sn.head } = sn ∧
     (sn.dir = .cw → sn'.head.toNat = (sn.head.toNat + b) % N) ∧
     (sn.dir = .ccw → (sn'.head.toNat + b) % N = sn.head.toNat))

/-- 43_range_update R506: the distance is the number of steps in the Snake's direction from the pixel to the head, below the
range size, and 0 exactly at the head. -/
def Obligations.SnakeDistanceCountsSteps : Prop :=
  ∀ (sn : Snake) (i N : Nat), i < N → sn.head.toNat < N →
    snakeDist i N sn < N ∧ (snakeDist i N sn = 0 ↔ i = sn.head.toNat) ∧
    (sn.dir = .cw → (i + snakeDist i N sn) % N = sn.head.toNat) ∧
    (sn.dir = .ccw → (sn.head.toNat + snakeDist i N sn) % N = i)

/-- A Snake adds its colour, weighted by `1 - (F/256) * d / (N-1)` clamped at 0, to every pixel at distance `d < len`, with
gamma 1 at the head for every range size, and leaves every other pixel alone (43_range_update R507, R508). -/
def Obligations.SnakeAddsItsFadedTrail : Prop :=
  ∀ (sn : Snake) (c : Color) (i N : Nat), i < N → sn.head.toNat < N →
    (let d := snakeDist i N sn
     let gd := 256 * (N - 1)
     let gn := gd - sn.fade.toNat * d
     (sn.len.toNat ≤ d → snakeContrib i N c sn = c) ∧
     (d < sn.len.toNat → d = 0 → ∀ k, ch (snakeContrib i N c sn) k = ch c k + ch sn.color k) ∧
     (d < sn.len.toNat → d ≠ 0 → 0 < gd ∧ ∀ k,
       (ch (snakeContrib i N c sn) k).toNat =
         ((ch c k).toNat + (2 * ((ch sn.color k).toNat * gn) + gd) / (2 * gd)) % 256))

/-- With no active Random instance of a count above 0, each channel of a composed pixel is the sum modulo 256 of what every
active Snake adds there (its colour, full at the head and faded by `1 - (F/256) * d / (N-1)` along its trail) and, when the
Pulse is on, of the Pulse's colour (43_range_update R507, R508, R511, R515). So a lone Snake with fade 0 lights exactly the
pixels at distance below its length, each in its full colour, and leaves the others black. -/
def Obligations.ComposeSumsSnakesAndPulse : Prop :=
  (∀ (R : RangeUnit) (i : Nat), R.rndAct = false ∨ R.rnd.count.val = 0 →
    (let N := R.size.toNat
     let addend := fun (k : Fin 4) (c : Chan) =>
       let sn := R.snake[k]
       let d := snakeDist i N sn
       let gd := 256 * (N - 1)
       if k.val < R.nsnake.val ∧ d < sn.len.toNat then
         if d = 0 then (ch sn.color c).toNat
         else (2 * ((ch sn.color c).toNat * (gd - sn.fade.toNat * d)) + gd) / (2 * gd)
       else 0
     let pulse := fun c : Chan => if R.pulseAct = true ∧ R.pulse.level ≠ 0 then (ch R.pulse.color c).toNat else 0
     ∀ c, (ch (compose R i) c).toNat = (addend 0 c + addend 1 c + addend 2 c + addend 3 c + pulse c) % 256)) ∧
  ∀ (R : RangeUnit) (i : Nat), R.nsnake.val = 1 → R.pulseAct = false → R.rndAct = false → R.snake[0].fade = 0 →
    i < R.size.toNat → R.snake[0].head.toNat < R.size.toNat →
    compose R i = if snakeDist i R.size.toNat R.snake[0] < R.snake[0].len.toNat then R.snake[0].color else 0

/-- 43_range_update R512: a Random advance by any number of beats gives the ring, cursor and length of that many sequential
insertions, although it makes only the last `min(b, count)` draws, in order. -/
def Obligations.RandomAdvanceIsSequentialInsertion : Prop :=
  ∀ (x : Rnd) (o : Oracle) (N : Nat) (vs rest : List Nat), 0 < N → (∀ v ∈ vs, v < N) →
    x.count.val ≠ 0 → x.len.val ≤ x.count.val → x.cur.val < x.count.val →
    o.answers = vs.drop (vs.length - x.count.val) ++ rest →
    (let out := randomAdvance vs.length N x o
     (out.1.hist.toList, out.1.cur.val, out.1.len.val) =
       (vs.map (BitVec.ofNat 16)).foldl (insertDraw x.count.val) (x.hist.toList, x.cur.val, x.len.val) ∧
     out.2 = { o with answers := rest } ∧
     { out.1 with hist := x.hist, cur := x.cur, len := x.len } = x)

/-- 43_range_update R513: an instance with count 0 is inert: it draws nothing, does not change and contributes nothing, yet
its beat makes the update write. -/
def Obligations.InertRandomStillTriggers : Prop :=
  ∀ (r : Nat) (s : State) (R : RangeUnit), s.ranges[r]? = some R → R.size ≠ 0 → R.rndAct = true →
    R.rnd.count.val = 0 → beats s.nowMs R.rnd.bk ≠ 0 →
    (∃ (t : State) (R' : RangeUnit), exec (.rangeUpdate r) s = .next t ∧ t.ranges = s.ranges.set r R' ∧
      t.writeCnt = s.writeCnt + 1 ∧ t.rng = s.rng ∧ R'.rnd = { R.rnd with bk := polled s.nowMs R.rnd.bk }) ∧
    ∀ i, compose R i = compose { R with rndAct := false } i

/-- An active Random instance with a count above 0 decides every pixel of its range: its foreground where the ring holds the
pixel's index, its background elsewhere, whatever the Snakes and the Pulse add (43_range_update R514, R516). -/
def Obligations.RandomOverwritesTheRange : Prop :=
  ∀ (R : RangeUnit) (i : Nat), R.rndAct = true → R.rnd.count.val ≠ 0 →
    ((∃ j : Fin 8, j.val < R.rnd.len.val ∧ R.rnd.hist[j].toNat = i) → compose R i = R.rnd.fg) ∧
    ((∀ j : Fin 8, j.val < R.rnd.len.val → R.rnd.hist[j].toNat ≠ i) → compose R i = R.rnd.bg)

/-- 10_state R123: verbose behaves as off; dry-run makes every state change that off makes, except that it emits no flush,
does not wait and does not count. -/
def Obligations.DryRunOnlySuppressesFlush : Prop :=
  ∀ (i : Instr) (s t : State), exec i (s.withLatchedMode .off) = .next t →
    exec i (s.withLatchedMode .verbose) = .next (t.withLatchedMode .verbose) ∧
    ∃ u, exec i (s.withLatchedMode .dryRun) = .next u ∧ u.withoutFlush = t.withoutFlush ∧ u.phase = .idle ∧
      u.showReq = s.showReq ∧ u.flushCnt = s.flushCnt ∧ u.spcFlushCnt = s.spcFlushCnt ∧
      u.spc.map SpcUnit.showReq = s.spc.map SpcUnit.showReq

/-! ## Single-Pixel Controller (44_single_pixel) -/

/-- SPC_CLEAR drops the patterns and blacks the pixel, with no flush (44_single_pixel R551). -/
def Obligations.SpcClearBlacksThePixel : Prop :=
  ∀ (u : Nat) (s : State) (S : SpcUnit), s.spc[u]? = some S →
    exec (.spcClear u) s = .next { s with spc := s.spc.set u { S with npat := 0, pixel := 0 }, phase := .idle }

/-- SPC_ADD_SOLID, SPC_ADD_BLINK and SPC_ADD_PWAVE fill the first free slot with the pattern their rules give, at phase 0 and
with its BeatKeeper reset at the time sample; a full unit drops it; nothing else changes (44_single_pixel R550-R557). -/
def Obligations.AddPatternFillsTheNextSlot : Prop :=
  ∀ (u : Nat) (i : Instr) (p : Pattern) (s : State) (S : SpcUnit), s.spc[u]? = some S →
    ((i = .spcAddSolid u ∧
        p = { kind := .solid, colA := s.latch.a.a0, colB := 0, half := 0
              bk := { dur := 0, start := s.nowMs, cum := 0 }, phase := 0 }) ∨
      (i = .spcAddBlink u ∧
        p = { kind := .blink, colA := s.latch.a.a0, colB := s.latch.a.a1, half := 0
              bk := { dur := s.latch.a.a3, start := s.nowMs, cum := 0 }, phase := 0 }) ∨
      (∃ half, half ≠ 0 ∧ i = .spcAddPwave u half ∧
        p = { kind := .pwave, colA := 0, colB := 0, half := BitVec.ofNat 11 half
              bk := { dur := 50, start := s.nowMs, cum := 0 }, phase := 0 })) →
    ∃ S' : SpcUnit,
      exec i s = .next { s with spc := s.spc.set u S', phase := .idle } ∧
      (S.npat.val = 2 → S' = S) ∧
      ∀ n : Fin 2, S.npat.val = n.val →
        { S' with npat := S.npat, pat := S.pat } = S ∧ S'.npat.val = n.val + 1 ∧ S'.pat[n] = p ∧
        ∀ k : Fin 2, k ≠ n → S'.pat[k] = S.pat[k]

/-- An SPC_UPDATE in which no active pattern reports a beat only polls its active Blinks and Pulse-waves
(44_single_pixel R560, R561). -/
def Obligations.ThrottledSpcUpdateOnlyPolls : Prop :=
  ∀ (u : Nat) (s : State) (S : SpcUnit), s.spc[u]? = some S →
    (∀ j : Fin 2, j.val < S.npat.val → (S.pat[j].kind = .blink ∨ S.pat[j].kind = .pwave) →
      beats s.nowMs S.pat[j].bk = 0) →
    ∃ S' : SpcUnit,
      exec (.spcUpdate u) s = .next { s with spc := s.spc.set u S', phase := .idle } ∧
      { S' with pat := S.pat } = S ∧
      ∀ j : Fin 2, S'.pat[j] =
        if j.val < S.npat.val ∧ (S.pat[j].kind = .blink ∨ S.pat[j].kind = .pwave) then
          { S.pat[j] with bk := polled s.nowMs S.pat[j].bk }
        else S.pat[j]

/-- An SPC_UPDATE in which an active Blink or Pulse-wave reports a beat advances the patterns, stores the pixel composed from
black in registration order, and flushes unless the latched mode is dry-run (44_single_pixel R560, R562, R565). -/
def Obligations.SpcUpdateComposesThePixel : Prop :=
  ∀ (u : Nat) (s : State) (S : SpcUnit), s.spc[u]? = some S →
    (∃ j : Fin 2, j.val < S.npat.val ∧ (S.pat[j].kind = .blink ∨ S.pat[j].kind = .pwave) ∧
      beats s.nowMs S.pat[j].bk ≠ 0) →
    ∃ S' : SpcUnit,
      exec (.spcUpdate u) s = .next
        (if s.latch.mode = .dryRun then { s with spc := s.spc.set u S', phase := .idle }
        else
          { s with spc := s.spc.set u { S' with showReq := true }, spcFlushCnt := s.spcFlushCnt + 1
                   phase := .waitSpc u }) ∧
      { S' with pat := S.pat, pixel := S.pixel } = S ∧
      (∀ j : Fin 2, S'.pat[j] =
        (let p := S.pat[j]
         let b := (beats s.nowMs p.bk).toNat
         if j.val < S.npat.val ∧ p.kind = .blink then
           { p with bk := polled s.nowMs p.bk, phase := BitVec.ofNat 12 ((p.phase.toNat + b) % 2) }
         else if j.val < S.npat.val ∧ p.kind = .pwave then
           { p with bk := polled s.nowMs p.bk, phase := BitVec.ofNat 12 ((p.phase.toNat + b) % (2 * p.half.toNat)) }
         else p)) ∧
      (S.npat.val = 1 → S'.pixel = patContrib 0 S'.pat[0]) ∧
      (S.npat.val = 2 → S'.pixel = patContrib (patContrib 0 S'.pat[0]) S'.pat[1])

/-- Solid and Blink overwrite; a Pulse-wave scales each channel by the triangular envelope, which rises from 0 at phase 0 to
1 at `half` and falls back one step per sub-tick (44_single_pixel R563, R564). -/
def Obligations.PatternsContributeByKind : Prop :=
  ∀ (p : Pattern) (c : Color),
    (p.kind = .solid → patContrib c p = p.colA) ∧
    (p.kind = .blink → patContrib c p = if p.phase = 0 then p.colA else p.colB) ∧
    (p.kind = .pwave → 1 ≤ p.half.toNat → p.phase.toNat < 2 * p.half.toNat →
      ∃ g : Nat, g ≤ p.half.toNat ∧ (p.phase.toNat ≤ p.half.toNat → g = p.phase.toNat) ∧
        (p.half.toNat < p.phase.toNat → g + p.phase.toNat = 2 * p.half.toNat) ∧
        ∀ k, (ch (patContrib c p) k).toNat = (2 * ((ch c k).toNat * g) + p.half.toNat) / (2 * p.half.toNat))

/-! ## Frames: what a command leaves alone -/

/-- No command changes the argument registers, the mode register, the latch, a parameter, an input level, the agenda or the
host's read data; `RESULT` changes only by BK_POLL and BLEND; `WRITE_CNT`, `FLUSH_CNT`, `show_req` and the random source
only by RANGE_UPDATE; `SPC_FLUSH_CNT` only by SPC_UPDATE (10_state R110, R112, R128). -/
def Obligations.CommandsLeaveRegistersAlone : Prop :=
  ∀ (i : Instr) (s t : State), exec i s = .next t →
    t.args = s.args ∧ t.dbgMode = s.dbgMode ∧ t.latch = s.latch ∧ t.params = s.params ∧
    t.rstN = s.rstN ∧ t.nowMs = s.nowMs ∧ t.showAck = s.showAck ∧ t.devIdx = s.devIdx ∧
    t.spc.map SpcUnit.showAck = s.spc.map SpcUnit.showAck ∧
    t.agenda = s.agenda ∧ t.rdata = s.rdata ∧ t.scanned = s.scanned ∧ t.freeReads = s.freeReads ∧
    (i ≠ .blend → i ≠ .bkPoll i.unitNum → t.result = s.result) ∧
    (i ≠ .rangeUpdate i.unitNum → t.writeCnt = s.writeCnt ∧ t.flushCnt = s.flushCnt ∧ t.showReq = s.showReq ∧
      t.rng = s.rng) ∧
    (i ≠ .spcUpdate i.unitNum → t.spcFlushCnt = s.spcFlushCnt)

/-- A command touches only units of its own kind, and of those only the one it names: GBK channels by BK_RESET and BK_POLL,
ranges by the range commands, SPC units by the SPC commands (10_state R146, R150; 42_range_setup R459). -/
def Obligations.CommandsTouchOnlyTheNamedUnit : Prop :=
  ∀ (i : Instr) (s t : State), exec i s = .next t →
    (i.opc ≠ 0x01 → i.opc ≠ 0x02 → t.gbk = s.gbk) ∧ (i.opc / 16 ≠ 1 → t.ranges = s.ranges) ∧
    (i.opc / 16 ≠ 2 → t.spc = s.spc) ∧
    ∀ n, n ≠ i.unitNum → t.gbk[n]? = s.gbk[n]? ∧ t.ranges[n]? = s.ranges[n]? ∧ t.spc[n]? = s.spc[n]?

/-- Every command but RANGE_CLEAR and RANGE_UPDATE leaves every byte of the frame as it was, and these two leave every byte
outside the strip's pixels 0 to `STRIP_LEN - 1` or the range's own pixels (10_state R170). -/
def Obligations.CommandsLeaveTheFrameAlone : Prop :=
  ∀ (i : Instr) (s t : State), exec i s = .next t → Memory.wf s.mem = true →
    (i ≠ .rangeClear i.unitNum → i ≠ .rangeUpdate i.unitNum → ∀ a, Memory.get t.mem a = Memory.get s.mem a) ∧
    (i = .rangeClear i.unitNum → ∀ a, a < pixelAddr 0 ∨ pixelAddr s.stripLen ≤ a →
      Memory.get t.mem a = Memory.get s.mem a) ∧
    (i = .rangeUpdate i.unitNum → ∀ R, s.ranges[i.unitNum]? = some R → ∀ a,
      a < pixelAddr R.offset.toNat ∨ pixelAddr (R.offset.toNat + R.size.toNat) ≤ a →
      Memory.get t.mem a = Memory.get s.mem a)

/-! ## Host accesses (20_memory, 45_system) -/

/-- A `CMD` write is accepted when the Engine is idle: it fills the latch from the word, `ARG0..ARG3` and the mode and sets
the phase to EXEC; while a command runs it is dropped, records `Error(BUSY, word)` and leaves the latched command alone
(10_state R112, R113; 60_exceptions R705). -/
def Obligations.CmdWriteIsAcceptedOrDropped : Prop :=
  ∀ (s : State) (v : Word) (ms : List Move), s.rstN = true → s.agenda = .write 0x010 .b4 v :: ms →
    (s.phase = .idle → step s = .next
      { s with agenda := ms, latch := { word := v, a := s.args, mode := s.dbgMode }, phase := .exec }) ∧
    (s.phase ≠ .idle → step s = .next
      { s with agenda := ms, errs := s.errs ||| 0b010000, errCode := 5, errInfo := v })

/-- A write to `ARGk` stores the value, in any phase (45_system R610). -/
def Obligations.ArgWriteStoresTheValue : Prop :=
  ∀ (s : State) (v : Word) (k : Fin 4) (ms : List Move), s.rstN = true →
    s.agenda = .write (0x014 + 4 * k.val) .b4 v :: ms →
    ∃ a : Args, step s = .next { s with agenda := ms, args := a } ∧
      ∀ j : Fin 4, argValue a j = if j = k then v else argValue s.args j

/-- 45_system R612: a `CTRL` write with `v[1:0] = 3` records `Error(ARG, v)` and keeps the mode; any other stores the mode
of `v[1:0]`. -/
def Obligations.CtrlWriteStoresTheMode : Prop :=
  ∀ (s : State) (v : Word) (ms : List Move), s.rstN = true → s.agenda = .write 0x008 .b4 v :: ms →
    (v.toNat % 4 = 0 → step s = .next { s with agenda := ms, dbgMode := .off }) ∧
    (v.toNat % 4 = 1 → step s = .next { s with agenda := ms, dbgMode := .verbose }) ∧
    (v.toNat % 4 = 2 → step s = .next { s with agenda := ms, dbgMode := .dryRun }) ∧
    (v.toNat % 4 = 3 → step s = .next
      { s with agenda := ms, errs := s.errs ||| 0b001000, errCode := 4, errInfo := v })

/-- 45_system R613: a `STATUS` write clears exactly the error bits written 1, and changes nothing else. -/
def Obligations.StatusWriteClearsErrorBits : Prop :=
  ∀ (s : State) (v : Word) (ms : List Move), s.rstN = true → s.agenda = .write 0x00C .b4 v :: ms →
    ∃ e : BitVec 6, step s = .next { s with agenda := ms, errs := e } ∧
      ∀ j : Fin 6, e.getLsbD j.val = (s.errs.getLsbD j.val && !v.getLsbD (8 + j.val))

/-- 20_memory R205: an access in the aperture of size 1 or 2, or at an offset that is not a multiple of 4, is not performed:
a write changes no register, a read returns 0, and either records `Error(ACC, off)`. -/
def Obligations.BadAccessIsRecorded : Prop :=
  ∀ (s : State) (off : Nat) (size : AccSize) (v : Word) (ms : List Move), s.rstN = true → off < 0x50000 →
    (size ≠ .b4 ∨ off % 4 ≠ 0) →
    (s.agenda = .write off size v :: ms → step s = .next
      { s with agenda := ms, errs := s.errs ||| 0b100000, errCode := 6, errInfo := BitVec.ofNat 32 off }) ∧
    (s.agenda = .read off size :: ms → step s = .next
      { s with agenda := ms, errs := s.errs ||| 0b100000, errCode := 6, errInfo := BitVec.ofNat 32 off, rdata := 0 })

/-- A well-formed write to any offset but `CTRL`, `STATUS`, `CMD` and `ARG0..ARG3` is ignored (45_system R610,
20_memory R203, R210). -/
def Obligations.OtherWritesAreIgnored : Prop :=
  ∀ (s : State) (off : Nat) (v : Word) (ms : List Move), s.rstN = true → off < 0x50000 → off % 4 = 0 →
    ¬ (0x008 ≤ off ∧ off ≤ 0x020) → s.agenda = .write off .b4 v :: ms → step s = .next { s with agenda := ms }

/-- 20_memory R207: no read has a side effect: a well-formed read changes only the read data and the model's own count of
free reads. -/
def Obligations.ReadsHaveNoSideEffect : Prop :=
  ∀ (s : State) (off : Nat) (ms : List Move), s.rstN = true → off < 0x50000 → off % 4 = 0 →
    s.agenda = .read off .b4 :: ms →
    ∃ (d : Word) (n : Nat), step s = .next { s with agenda := ms, rdata := d, freeReads := n }

/-- The reads that are exact at all times, also while a command runs: `ID`, `PARAM`, `CTRL`, `STATUS`, `CMD` (0),
`ARG0..ARG3`, `NOW`, and every unmapped offset (0) (10_state R120-R126, 20_memory R202, R203, R208). -/
def Obligations.HostRegistersReadExactly : Prop :=
  ∀ (s : State) (ms : List Move), s.rstN = true → s.params.legal →
    (s.agenda = .read 0x000 .b4 :: ms → step s = .next { s with agenda := ms, rdata := 0x424B4301 }) ∧
    (s.agenda = .read 0x004 .b4 :: ms → step s = .next
      { s with agenda := ms
               rdata := BitVec.ofNat 32 (s.stripLen * 2 ^ 16 + s.numGbk * 2 ^ 8 + s.numSpc * 2 ^ 4 + s.numRanges) }) ∧
    (s.agenda = .read 0x008 .b4 :: ms → step s = .next
      { s with agenda := ms
               rdata := if s.dbgMode = .off then 0 else if s.dbgMode = .verbose then 1 else 2 }) ∧
    (s.agenda = .read 0x00C .b4 :: ms → step s = .next
      { s with agenda := ms
               rdata := BitVec.ofNat 32 (s.errs.toNat * 2 ^ 8 + if s.phase = .idle then 0 else 1) }) ∧
    (s.agenda = .read 0x010 .b4 :: ms → step s = .next { s with agenda := ms, rdata := 0 }) ∧
    (∀ k : Fin 4, s.agenda = .read (0x014 + 4 * k.val) .b4 :: ms →
      step s = .next { s with agenda := ms, rdata := argValue s.args k }) ∧
    (s.agenda = .read 0x028 .b4 :: ms → step s = .next { s with agenda := ms, rdata := s.nowMs }) ∧
    ∀ off, off % 4 = 0 → (0x0C0 ≤ off ∧ off < 0x100) ∨ (0x400 ≤ off ∧ off < 0x10000) → ReadsAs s ms off 0

/-- When the Engine is idle, `RESULT`, the error registers, the event counters, the GBK readback and the frame view read the
state's own values, and an absent channel or a pixel beyond the strip reads 0. While a command runs, a read of any of them, or
of the readback words of a range or an SPC unit, has a value that nothing constrains, and a reserved word of a block and the
block of an absent unit still read 0 (10_state R110, R127, R128, R146, R156, R166; 20_memory R203, R208, R210). The
unconstrained value is the model's free value (log 6); that it is also what a pixel beyond the strip reads as then, and that
reserved words and absent units keep reading 0, is DEDUCED (log 7). -/
def Obligations.EngineWrittenReads : Prop :=
  ∀ (s : State) (ms : List Move), s.rstN = true →
    (s.phase = .idle → s.agenda = .read 0x024 .b4 :: ms → step s = .next { s with agenda := ms, rdata := s.result }) ∧
    (s.phase = .idle → s.agenda = .read 0x02C .b4 :: ms → step s = .next { s with agenda := ms, rdata := s.errInfo }) ∧
    (s.phase = .idle → s.agenda = .read 0x030 .b4 :: ms →
      step s = .next { s with agenda := ms, rdata := BitVec.ofNat 32 s.errCode.toNat }) ∧
    (s.phase = .idle → s.agenda = .read 0x034 .b4 :: ms → step s = .next { s with agenda := ms, rdata := s.flushCnt }) ∧
    (s.phase = .idle → s.agenda = .read 0x038 .b4 :: ms → step s = .next { s with agenda := ms, rdata := s.writeCnt }) ∧
    (s.phase = .idle → s.agenda = .read 0x03C .b4 :: ms →
      step s = .next { s with agenda := ms, rdata := s.spcFlushCnt }) ∧
    (∀ g w, s.phase = .idle → g < 8 → w < 4 → s.agenda = .read (0x040 + 16 * g + 4 * w) .b4 :: ms →
      ∃ d : Word, step s = .next { s with agenda := ms, rdata := d } ∧
        (s.gbk[g]? = none → d = 0) ∧
        ∀ bk, s.gbk[g]? = some bk →
          d = if w = 0 then bk.dur else if w = 1 then bk.start else if w = 2 then bk.cum else 0) ∧
    (∀ i, s.phase = .idle → i < 65536 → s.agenda = .read (0x10000 + 4 * i) .b4 :: ms →
      step s = .next { s with agenda := ms, rdata := if i < s.stripLen then readPixel s.mem i else 0 }) ∧
    (∀ off, s.phase ≠ .idle → off % 4 = 0 →
      off = 0x024 ∨ (0x02C ≤ off ∧ off ≤ 0x03C) ∨ (0x10000 ≤ off ∧ off < 0x50000) → ReadsFree s ms off) ∧
    (∀ g w, s.phase ≠ .idle → g < 8 → w < 4 →
      if g < s.numGbk ∧ w < 3 then ReadsFree s ms (0x040 + 16 * g + 4 * w) else ReadsAs s ms (0x040 + 16 * g + 4 * w) 0) ∧
    (∀ r w, s.phase ≠ .idle → r < 8 → w < 16 →
      if r < s.numRanges ∧ w < 8 then ReadsFree s ms (0x100 + 64 * r + 4 * w)
      else ReadsAs s ms (0x100 + 64 * r + 4 * w) 0) ∧
    ∀ u w, s.phase ≠ .idle → u < 8 → w < 8 →
      if u < s.numSpc ∧ w < 4 then ReadsFree s ms (0x300 + 32 * u + 4 * w) else ReadsAs s ms (0x300 + 32 * u + 4 * w) 0

/-- When the Engine is idle, the readback blocks of a range and of an SPC unit hold, field by field at their bit positions,
the unit's configuration, counts, heads, history, pixel and phases, with 0 for what is not active; the block of an absent
unit reads 0 (10_state R156, R166; 20_memory R203). -/
def Obligations.UnitReadback : Prop :=
  ∀ (s : State) (ms : List Move), s.rstN = true → s.phase = .idle →
    (∀ (r : Nat) (R : RangeUnit), r < 8 → s.ranges[r]? = some R →
      (let rb := 0x100 + 64 * r
       let head := fun k : Fin 4 => if k.val < R.nsnake.val then R.snake[k].head.toNat else 0
       let hist := fun j : Fin 8 => if R.rndAct = true then R.rnd.hist[j].toNat else 0
       ReadsAs s ms rb (R.offset.toNat + R.size.toNat * 2 ^ 16) ∧
       ReadsAs s ms (rb + 0x04) (R.nsnake.val + (if R.pulseAct = true then 2 ^ 4 + R.pulse.level.toNat * 2 ^ 5 else 0) +
         (if R.rndAct = true then
            2 ^ 6 + R.rnd.count.val * 2 ^ 8 + R.rnd.len.val * 2 ^ 12 + R.rnd.cur.val * 2 ^ 16 else 0)) ∧
       ReadsAs s ms (rb + 0x08) (head 0 + head 1 * 2 ^ 16) ∧ ReadsAs s ms (rb + 0x0C) (head 2 + head 3 * 2 ^ 16) ∧
       ReadsAs s ms (rb + 0x10) (hist 0 + hist 1 * 2 ^ 16) ∧ ReadsAs s ms (rb + 0x14) (hist 2 + hist 3 * 2 ^ 16) ∧
       ReadsAs s ms (rb + 0x18) (hist 4 + hist 5 * 2 ^ 16) ∧ ReadsAs s ms (rb + 0x1C) (hist 6 + hist 7 * 2 ^ 16) ∧
       ∀ w, 8 ≤ w → w < 16 → ReadsAs s ms (rb + 4 * w) 0)) ∧
    (∀ (u : Nat) (S : SpcUnit), u < 8 → s.spc[u]? = some S →
      (let sb := 0x300 + 32 * u
       let kind := fun j : Fin 2 => if j.val < S.npat.val then (kindCode S.pat[j].kind).toNat else 0
       let phase := fun j : Fin 2 =>
         if j.val < S.npat.val ∧ (S.pat[j].kind = .blink ∨ S.pat[j].kind = .pwave) then S.pat[j].phase.toNat else 0
       ReadsAs s ms sb S.pixel.toNat ∧
       ReadsAs s ms (sb + 0x04) (S.npat.val + kind 0 * 2 ^ 4 + kind 1 * 2 ^ 6) ∧
       ReadsAs s ms (sb + 0x08) (phase 0) ∧ ReadsAs s ms (sb + 0x0C) (phase 1) ∧
       ∀ w, 4 ≤ w → w < 8 → ReadsAs s ms (sb + 4 * w) 0)) ∧
    (∀ r w, s.numRanges ≤ r → r < 8 → w < 16 → ReadsAs s ms (0x100 + 64 * r + 4 * w) 0) ∧
    ∀ u w, s.numSpc ≤ u → u < 8 → w < 8 → ReadsAs s ms (0x300 + 32 * u + 4 * w) 0

/-- A host access never changes a command already latched, nor the phase of a running one: `ARGk` and `CTRL` writes affect
only later commands (20_memory R223, 70_reset R813). -/
def Obligations.RunningCommandIsProtected : Prop :=
  ∀ (s t : State) (m : Move) (ms : List Move), s.phase ≠ .idle → s.agenda = m :: ms →
    ((∃ off size v, m = .write off size v) ∨ ∃ off size, m = .read off size) → step s = .next t →
    t.latch = s.latch ∧ t.phase = s.phase ∧ t.mem = s.mem ∧ t.ranges = s.ranges ∧ t.gbk = s.gbk ∧ t.spc = s.spc

/-! ## Flush (70_reset_and_hazards R811) -/

/-- The Engine's step out of a flush wait is enabled exactly when the acknowledge is high: it drops the request and goes
idle; otherwise nothing changes (70_reset R811; that a disabled Engine turn is a step that changes nothing is the model's
choice, log 8). -/
def Obligations.FlushWaitEndsOnAcknowledge : Prop :=
  ∀ s : State, EngineNext s →
    (s.phase = .waitShow → s.showAck = true → step s = .next { s with showReq := false, phase := .idle }) ∧
    (s.phase = .waitShow → s.showAck = false → step s = .next s) ∧
    (∀ (u : Nat) (S : SpcUnit), s.phase = .waitSpc u → s.spc[u]? = some S →
      (S.showAck = true → step s = .next
        { s with spc := s.spc.set u { S with showReq := false }, phase := .idle }) ∧
      (S.showAck = false → step s = .next s))

/-- The frame does not change while a strip flush waits, whoever moves, reset apart; so what the strip device then reads at
its port, also beside a turn of the Engine, is the pixel of the waiting frame, and 0 beyond the strip. Beside an EXEC step a
device read sees each pixel as it was before that step or as it is after it, read by read, and the step itself is as it is
without the reads (20_memory R212, 70_reset R815, 10_state R104; that the reads beside one EXEC step are one move with it is
the model's choice, log 24). -/
def Obligations.DeviceReadsTheFrame : Prop :=
  (∀ s t : State, s.phase = .waitShow → (∀ ms, s.agenda ≠ .assertReset :: ms) → step s = .next t →
    (∀ a, Memory.get t.mem a = Memory.get s.mem a) ∧
    t.devPixel = (if t.devIdx.toNat < s.stripLen then readPixel s.mem t.devIdx.toNat else 0) ∧
    ∀ reads ms, s.agenda = .scan reads :: ms →
      t.scanned = reads.map fun x => if x.idx.toNat < s.stripLen then readPixel s.mem x.idx.toNat else 0) ∧
  ∀ (s t : State) (i : Instr) (reads : List PixelRead) (ms : List Move), s.rstN = true → s.phase = .exec →
    decode s.latch.word = .command i → s.agenda = .scan reads :: ms → exec i { s with agenda := ms } = .next t →
    step s = .next
      { t with
          scanned := reads.map fun x =>
            if x.idx.toNat < s.stripLen then readPixel (if x.after = true then t.mem else s.mem) x.idx.toNat else 0
          devIdx := (reads.getLast?).elim s.devIdx PixelRead.idx }

/-! ## Reset (10_state R175, 70_reset_and_hazards) -/

/-- 10_state R175: every piece of state at its reset value, for every instance. -/
def Obligations.ResetValues : Prop :=
  ∀ p : Config.Params, p.legal →
    (let s := State.resetWith p
     s.params = p ∧ s.phase = .idle ∧ s.latch = { word := 0, a := ⟨0, 0, 0, 0⟩, mode := .off } ∧
     s.args = ⟨0, 0, 0, 0⟩ ∧ s.result = 0 ∧ s.dbgMode = p.dbgRst ∧ s.errs = 0 ∧ s.errInfo = 0 ∧ s.errCode = 0 ∧
     s.flushCnt = 0 ∧ s.writeCnt = 0 ∧ s.spcFlushCnt = 0 ∧ s.showReq = false ∧
     (∀ g, g < p.numGbk → s.gbk[g]? = some { dur := 0, start := 0, cum := 0 }) ∧
     (∃ R, s.ranges[0]? = some R ∧ R.offset = 0 ∧ R.size.toNat = p.stripLen) ∧
     (∀ r, 0 < r → r < p.numRanges → ∃ R, s.ranges[r]? = some R ∧ R.offset = 0 ∧ R.size = 0) ∧
     (∀ R ∈ s.ranges, R.nsnake = 0 ∧ R.pulseAct = false ∧ R.rndAct = false ∧
       R = RangeUnit.empty R.offset R.size) ∧
     (∀ u, u < p.numSpc → ∃ S, s.spc[u]? = some S ∧ S.npat = 0 ∧ S.pixel = 0 ∧ S.showReq = false ∧
       ∀ j : Fin 2, S.pat[j] = { kind := .none, colA := 0, colB := 0, half := 0, bk := ⟨0, 0, 0⟩, phase := 0 }) ∧
     ∀ i, s.frame i = 0)

/-- Asserting reset in any state, in the middle of a flush wait too, puts every piece of state at its reset value with
`rst_n` low, and drops the requests; `now_ms` stays (70_reset R800, R803), and so do the parameters, the other inputs, the
draws and what was last read (the model's choice, log 14). -/
def Obligations.AssertedResetTakesResetValues : Prop :=
  ∀ (s : State) (ms : List Move), s.agenda = .assertReset :: ms →
    ∃ t, step s = .next t ∧ t.rstN = false ∧ t.nowMs = s.nowMs ∧ t.agenda = ms ∧ t.params = s.params ∧
      t.showAck = s.showAck ∧ t.devIdx = s.devIdx ∧ t.rng = s.rng ∧ t.rdata = s.rdata ∧ t.scanned = s.scanned ∧
      t.freeReads = s.freeReads ∧
      t.spc.map SpcUnit.showAck = s.spc.map SpcUnit.showAck ∧
      (let z := State.resetWith s.params
       t.phase = z.phase ∧ t.latch = z.latch ∧ t.args = z.args ∧ t.result = z.result ∧ t.dbgMode = z.dbgMode ∧
       t.errs = z.errs ∧ t.errInfo = z.errInfo ∧ t.errCode = z.errCode ∧ t.flushCnt = z.flushCnt ∧
       t.writeCnt = z.writeCnt ∧ t.spcFlushCnt = z.spcFlushCnt ∧ t.showReq = z.showReq ∧ t.gbk = z.gbk ∧
       t.ranges = z.ranges ∧ t.mem = z.mem ∧
       t.spc.map (fun S => { S with showAck := false }) = z.spc)

/-- While `rst_n` is low the Engine takes no step, host writes are ignored, host reads return 0 and no error is recorded. When
`rst_n` returns high nothing else changes: from the state that reset holds the BKC is then idle, and it accepts the next `CMD`
write (70_reset R800). -/
def Obligations.ResetHoldsThenReleases : Prop :=
  (∀ (s : State) (off : Nat) (size : AccSize) (v : Word) (ms : List Move), s.rstN = false → off < 0x50000 →
    (s.agenda = [] → step s = .next s) ∧
    (s.agenda = .engine :: ms → step s = .next { s with agenda := ms }) ∧
    (s.agenda = .write off size v :: ms → step s = .next { s with agenda := ms }) ∧
    (s.agenda = .read off size :: ms → step s = .next { s with agenda := ms, rdata := 0 })) ∧
  ∀ (s : State) (ms : List Move), s.agenda = .releaseReset :: ms →
    step s = .next { s with agenda := ms, rstN := true } ∧
    (s.rstN = false → s = s.heldInReset →
      (let t := { s with agenda := ms, rstN := true }
       t.phase = .idle ∧ t.showReq = false ∧
       ∀ v ms', ms = .write 0x010 .b4 v :: ms' → step t = .next
         { t with agenda := ms', latch := { word := v, a := t.args, mode := t.dbgMode }, phase := .exec }))

/-! ## The invariant -/

/-- The invariant holds right after reset, for every instance, and in `State.reset`. -/
def Obligations.InvariantHoldsAtReset : Prop :=
  (∀ p : Config.Params, p.legal → Inv (State.resetWith p)) ∧ Inv State.reset

/-- Every step of every agent keeps the invariant. -/
def Obligations.StepKeepsInvariant : Prop :=
  ∀ s t : State, Inv s → step s = .next t → Inv t

end
end

