-- ==== Sys2Proof/Laws/State.lean ====
section
/-! SUPPORT. One lemma per field per state update, true by rfl, so that no proof unfolds a record update. -/

namespace Sys2Proof.Machine

open Sys2Proof

variable (s : State)

/-! ## `State.setGbk` -/

@[simp] theorem State.setGbk_args (g : Nat) (bk : BeatKeeper) : (s.setGbk g bk).args = s.args := rfl
@[simp] theorem State.setGbk_result (g : Nat) (bk : BeatKeeper) : (s.setGbk g bk).result = s.result := rfl
@[simp] theorem State.setGbk_dbgMode (g : Nat) (bk : BeatKeeper) : (s.setGbk g bk).dbgMode = s.dbgMode := rfl
@[simp] theorem State.setGbk_errs (g : Nat) (bk : BeatKeeper) : (s.setGbk g bk).errs = s.errs := rfl
@[simp] theorem State.setGbk_errInfo (g : Nat) (bk : BeatKeeper) : (s.setGbk g bk).errInfo = s.errInfo := rfl
@[simp] theorem State.setGbk_errCode (g : Nat) (bk : BeatKeeper) : (s.setGbk g bk).errCode = s.errCode := rfl
@[simp] theorem State.setGbk_flushCnt (g : Nat) (bk : BeatKeeper) : (s.setGbk g bk).flushCnt = s.flushCnt := rfl
@[simp] theorem State.setGbk_writeCnt (g : Nat) (bk : BeatKeeper) : (s.setGbk g bk).writeCnt = s.writeCnt := rfl
@[simp] theorem State.setGbk_spcFlushCnt (g : Nat) (bk : BeatKeeper) : (s.setGbk g bk).spcFlushCnt = s.spcFlushCnt := rfl
@[simp] theorem State.setGbk_latch (g : Nat) (bk : BeatKeeper) : (s.setGbk g bk).latch = s.latch := rfl
@[simp] theorem State.setGbk_phase (g : Nat) (bk : BeatKeeper) : (s.setGbk g bk).phase = s.phase := rfl
@[simp] theorem State.setGbk_gbk (g : Nat) (bk : BeatKeeper) : (s.setGbk g bk).gbk = s.gbk.set g bk := rfl
@[simp] theorem State.setGbk_ranges (g : Nat) (bk : BeatKeeper) : (s.setGbk g bk).ranges = s.ranges := rfl
@[simp] theorem State.setGbk_spc (g : Nat) (bk : BeatKeeper) : (s.setGbk g bk).spc = s.spc := rfl
@[simp] theorem State.setGbk_mem (g : Nat) (bk : BeatKeeper) : (s.setGbk g bk).mem = s.mem := rfl
@[simp] theorem State.setGbk_showReq (g : Nat) (bk : BeatKeeper) : (s.setGbk g bk).showReq = s.showReq := rfl
@[simp] theorem State.setGbk_stripLen (g : Nat) (bk : BeatKeeper) : (s.setGbk g bk).stripLen = s.stripLen := rfl
@[simp] theorem State.setGbk_dbgRst (g : Nat) (bk : BeatKeeper) : (s.setGbk g bk).dbgRst = s.dbgRst := rfl
@[simp] theorem State.setGbk_rstN (g : Nat) (bk : BeatKeeper) : (s.setGbk g bk).rstN = s.rstN := rfl
@[simp] theorem State.setGbk_nowMs (g : Nat) (bk : BeatKeeper) : (s.setGbk g bk).nowMs = s.nowMs := rfl
@[simp] theorem State.setGbk_showAck (g : Nat) (bk : BeatKeeper) : (s.setGbk g bk).showAck = s.showAck := rfl
@[simp] theorem State.setGbk_devIdx (g : Nat) (bk : BeatKeeper) : (s.setGbk g bk).devIdx = s.devIdx := rfl
@[simp] theorem State.setGbk_rng (g : Nat) (bk : BeatKeeper) : (s.setGbk g bk).rng = s.rng := rfl
@[simp] theorem State.setGbk_scanned (g : Nat) (bk : BeatKeeper) : (s.setGbk g bk).scanned = s.scanned := rfl
@[simp] theorem State.setGbk_rdata (g : Nat) (bk : BeatKeeper) : (s.setGbk g bk).rdata = s.rdata := rfl
@[simp] theorem State.setGbk_freeReads (g : Nat) (bk : BeatKeeper) : (s.setGbk g bk).freeReads = s.freeReads := rfl
@[simp] theorem State.setGbk_agenda (g : Nat) (bk : BeatKeeper) : (s.setGbk g bk).agenda = s.agenda := rfl

/-! ## `State.setRange` -/

@[simp] theorem State.setRange_args (r : Nat) (R : RangeUnit) : (s.setRange r R).args = s.args := rfl
@[simp] theorem State.setRange_result (r : Nat) (R : RangeUnit) : (s.setRange r R).result = s.result := rfl
@[simp] theorem State.setRange_dbgMode (r : Nat) (R : RangeUnit) : (s.setRange r R).dbgMode = s.dbgMode := rfl
@[simp] theorem State.setRange_errs (r : Nat) (R : RangeUnit) : (s.setRange r R).errs = s.errs := rfl
@[simp] theorem State.setRange_errInfo (r : Nat) (R : RangeUnit) : (s.setRange r R).errInfo = s.errInfo := rfl
@[simp] theorem State.setRange_errCode (r : Nat) (R : RangeUnit) : (s.setRange r R).errCode = s.errCode := rfl
@[simp] theorem State.setRange_flushCnt (r : Nat) (R : RangeUnit) : (s.setRange r R).flushCnt = s.flushCnt := rfl
@[simp] theorem State.setRange_writeCnt (r : Nat) (R : RangeUnit) : (s.setRange r R).writeCnt = s.writeCnt := rfl
@[simp] theorem State.setRange_spcFlushCnt (r : Nat) (R : RangeUnit) : (s.setRange r R).spcFlushCnt = s.spcFlushCnt := rfl
@[simp] theorem State.setRange_latch (r : Nat) (R : RangeUnit) : (s.setRange r R).latch = s.latch := rfl
@[simp] theorem State.setRange_phase (r : Nat) (R : RangeUnit) : (s.setRange r R).phase = s.phase := rfl
@[simp] theorem State.setRange_gbk (r : Nat) (R : RangeUnit) : (s.setRange r R).gbk = s.gbk := rfl
@[simp] theorem State.setRange_ranges (r : Nat) (R : RangeUnit) : (s.setRange r R).ranges = s.ranges.set r R := rfl
@[simp] theorem State.setRange_spc (r : Nat) (R : RangeUnit) : (s.setRange r R).spc = s.spc := rfl
@[simp] theorem State.setRange_mem (r : Nat) (R : RangeUnit) : (s.setRange r R).mem = s.mem := rfl
@[simp] theorem State.setRange_showReq (r : Nat) (R : RangeUnit) : (s.setRange r R).showReq = s.showReq := rfl
@[simp] theorem State.setRange_stripLen (r : Nat) (R : RangeUnit) : (s.setRange r R).stripLen = s.stripLen := rfl
@[simp] theorem State.setRange_dbgRst (r : Nat) (R : RangeUnit) : (s.setRange r R).dbgRst = s.dbgRst := rfl
@[simp] theorem State.setRange_rstN (r : Nat) (R : RangeUnit) : (s.setRange r R).rstN = s.rstN := rfl
@[simp] theorem State.setRange_nowMs (r : Nat) (R : RangeUnit) : (s.setRange r R).nowMs = s.nowMs := rfl
@[simp] theorem State.setRange_showAck (r : Nat) (R : RangeUnit) : (s.setRange r R).showAck = s.showAck := rfl
@[simp] theorem State.setRange_devIdx (r : Nat) (R : RangeUnit) : (s.setRange r R).devIdx = s.devIdx := rfl
@[simp] theorem State.setRange_rng (r : Nat) (R : RangeUnit) : (s.setRange r R).rng = s.rng := rfl
@[simp] theorem State.setRange_scanned (r : Nat) (R : RangeUnit) : (s.setRange r R).scanned = s.scanned := rfl
@[simp] theorem State.setRange_rdata (r : Nat) (R : RangeUnit) : (s.setRange r R).rdata = s.rdata := rfl
@[simp] theorem State.setRange_freeReads (r : Nat) (R : RangeUnit) : (s.setRange r R).freeReads = s.freeReads := rfl
@[simp] theorem State.setRange_agenda (r : Nat) (R : RangeUnit) : (s.setRange r R).agenda = s.agenda := rfl

/-! ## `State.setSpc` -/

@[simp] theorem State.setSpc_args (u : Nat) (S : SpcUnit) : (s.setSpc u S).args = s.args := rfl
@[simp] theorem State.setSpc_result (u : Nat) (S : SpcUnit) : (s.setSpc u S).result = s.result := rfl
@[simp] theorem State.setSpc_dbgMode (u : Nat) (S : SpcUnit) : (s.setSpc u S).dbgMode = s.dbgMode := rfl
@[simp] theorem State.setSpc_errs (u : Nat) (S : SpcUnit) : (s.setSpc u S).errs = s.errs := rfl
@[simp] theorem State.setSpc_errInfo (u : Nat) (S : SpcUnit) : (s.setSpc u S).errInfo = s.errInfo := rfl
@[simp] theorem State.setSpc_errCode (u : Nat) (S : SpcUnit) : (s.setSpc u S).errCode = s.errCode := rfl
@[simp] theorem State.setSpc_flushCnt (u : Nat) (S : SpcUnit) : (s.setSpc u S).flushCnt = s.flushCnt := rfl
@[simp] theorem State.setSpc_writeCnt (u : Nat) (S : SpcUnit) : (s.setSpc u S).writeCnt = s.writeCnt := rfl
@[simp] theorem State.setSpc_spcFlushCnt (u : Nat) (S : SpcUnit) : (s.setSpc u S).spcFlushCnt = s.spcFlushCnt := rfl
@[simp] theorem State.setSpc_latch (u : Nat) (S : SpcUnit) : (s.setSpc u S).latch = s.latch := rfl
@[simp] theorem State.setSpc_phase (u : Nat) (S : SpcUnit) : (s.setSpc u S).phase = s.phase := rfl
@[simp] theorem State.setSpc_gbk (u : Nat) (S : SpcUnit) : (s.setSpc u S).gbk = s.gbk := rfl
@[simp] theorem State.setSpc_ranges (u : Nat) (S : SpcUnit) : (s.setSpc u S).ranges = s.ranges := rfl
@[simp] theorem State.setSpc_spc (u : Nat) (S : SpcUnit) : (s.setSpc u S).spc = s.spc.set u S := rfl
@[simp] theorem State.setSpc_mem (u : Nat) (S : SpcUnit) : (s.setSpc u S).mem = s.mem := rfl
@[simp] theorem State.setSpc_showReq (u : Nat) (S : SpcUnit) : (s.setSpc u S).showReq = s.showReq := rfl
@[simp] theorem State.setSpc_stripLen (u : Nat) (S : SpcUnit) : (s.setSpc u S).stripLen = s.stripLen := rfl
@[simp] theorem State.setSpc_dbgRst (u : Nat) (S : SpcUnit) : (s.setSpc u S).dbgRst = s.dbgRst := rfl
@[simp] theorem State.setSpc_rstN (u : Nat) (S : SpcUnit) : (s.setSpc u S).rstN = s.rstN := rfl
@[simp] theorem State.setSpc_nowMs (u : Nat) (S : SpcUnit) : (s.setSpc u S).nowMs = s.nowMs := rfl
@[simp] theorem State.setSpc_showAck (u : Nat) (S : SpcUnit) : (s.setSpc u S).showAck = s.showAck := rfl
@[simp] theorem State.setSpc_devIdx (u : Nat) (S : SpcUnit) : (s.setSpc u S).devIdx = s.devIdx := rfl
@[simp] theorem State.setSpc_rng (u : Nat) (S : SpcUnit) : (s.setSpc u S).rng = s.rng := rfl
@[simp] theorem State.setSpc_scanned (u : Nat) (S : SpcUnit) : (s.setSpc u S).scanned = s.scanned := rfl
@[simp] theorem State.setSpc_rdata (u : Nat) (S : SpcUnit) : (s.setSpc u S).rdata = s.rdata := rfl
@[simp] theorem State.setSpc_freeReads (u : Nat) (S : SpcUnit) : (s.setSpc u S).freeReads = s.freeReads := rfl
@[simp] theorem State.setSpc_agenda (u : Nat) (S : SpcUnit) : (s.setSpc u S).agenda = s.agenda := rfl

/-! ## `State.writeFrame` -/

@[simp] theorem State.writeFrame_args (i : Nat) (cs : List Color) : (s.writeFrame i cs).args = s.args := rfl
@[simp] theorem State.writeFrame_result (i : Nat) (cs : List Color) : (s.writeFrame i cs).result = s.result := rfl
@[simp] theorem State.writeFrame_dbgMode (i : Nat) (cs : List Color) : (s.writeFrame i cs).dbgMode = s.dbgMode := rfl
@[simp] theorem State.writeFrame_errs (i : Nat) (cs : List Color) : (s.writeFrame i cs).errs = s.errs := rfl
@[simp] theorem State.writeFrame_errInfo (i : Nat) (cs : List Color) : (s.writeFrame i cs).errInfo = s.errInfo := rfl
@[simp] theorem State.writeFrame_errCode (i : Nat) (cs : List Color) : (s.writeFrame i cs).errCode = s.errCode := rfl
@[simp] theorem State.writeFrame_flushCnt (i : Nat) (cs : List Color) : (s.writeFrame i cs).flushCnt = s.flushCnt := rfl
@[simp] theorem State.writeFrame_writeCnt (i : Nat) (cs : List Color) : (s.writeFrame i cs).writeCnt = s.writeCnt := rfl
@[simp] theorem State.writeFrame_spcFlushCnt (i : Nat) (cs : List Color) : (s.writeFrame i cs).spcFlushCnt = s.spcFlushCnt := rfl
@[simp] theorem State.writeFrame_latch (i : Nat) (cs : List Color) : (s.writeFrame i cs).latch = s.latch := rfl
@[simp] theorem State.writeFrame_phase (i : Nat) (cs : List Color) : (s.writeFrame i cs).phase = s.phase := rfl
@[simp] theorem State.writeFrame_gbk (i : Nat) (cs : List Color) : (s.writeFrame i cs).gbk = s.gbk := rfl
@[simp] theorem State.writeFrame_ranges (i : Nat) (cs : List Color) : (s.writeFrame i cs).ranges = s.ranges := rfl
@[simp] theorem State.writeFrame_spc (i : Nat) (cs : List Color) : (s.writeFrame i cs).spc = s.spc := rfl
@[simp] theorem State.writeFrame_mem (i : Nat) (cs : List Color) : (s.writeFrame i cs).mem = writePixels s.mem i cs := rfl
@[simp] theorem State.writeFrame_showReq (i : Nat) (cs : List Color) : (s.writeFrame i cs).showReq = s.showReq := rfl
@[simp] theorem State.writeFrame_stripLen (i : Nat) (cs : List Color) : (s.writeFrame i cs).stripLen = s.stripLen := rfl
@[simp] theorem State.writeFrame_dbgRst (i : Nat) (cs : List Color) : (s.writeFrame i cs).dbgRst = s.dbgRst := rfl
@[simp] theorem State.writeFrame_rstN (i : Nat) (cs : List Color) : (s.writeFrame i cs).rstN = s.rstN := rfl
@[simp] theorem State.writeFrame_nowMs (i : Nat) (cs : List Color) : (s.writeFrame i cs).nowMs = s.nowMs := rfl
@[simp] theorem State.writeFrame_showAck (i : Nat) (cs : List Color) : (s.writeFrame i cs).showAck = s.showAck := rfl
@[simp] theorem State.writeFrame_devIdx (i : Nat) (cs : List Color) : (s.writeFrame i cs).devIdx = s.devIdx := rfl
@[simp] theorem State.writeFrame_rng (i : Nat) (cs : List Color) : (s.writeFrame i cs).rng = s.rng := rfl
@[simp] theorem State.writeFrame_scanned (i : Nat) (cs : List Color) : (s.writeFrame i cs).scanned = s.scanned := rfl
@[simp] theorem State.writeFrame_rdata (i : Nat) (cs : List Color) : (s.writeFrame i cs).rdata = s.rdata := rfl
@[simp] theorem State.writeFrame_freeReads (i : Nat) (cs : List Color) : (s.writeFrame i cs).freeReads = s.freeReads := rfl
@[simp] theorem State.writeFrame_agenda (i : Nat) (cs : List Color) : (s.writeFrame i cs).agenda = s.agenda := rfl

/-! ## `State.blackFrame` -/

@[simp] theorem State.blackFrame_args : (s.blackFrame).args = s.args := rfl
@[simp] theorem State.blackFrame_result : (s.blackFrame).result = s.result := rfl
@[simp] theorem State.blackFrame_dbgMode : (s.blackFrame).dbgMode = s.dbgMode := rfl
@[simp] theorem State.blackFrame_errs : (s.blackFrame).errs = s.errs := rfl
@[simp] theorem State.blackFrame_errInfo : (s.blackFrame).errInfo = s.errInfo := rfl
@[simp] theorem State.blackFrame_errCode : (s.blackFrame).errCode = s.errCode := rfl
@[simp] theorem State.blackFrame_flushCnt : (s.blackFrame).flushCnt = s.flushCnt := rfl
@[simp] theorem State.blackFrame_writeCnt : (s.blackFrame).writeCnt = s.writeCnt := rfl
@[simp] theorem State.blackFrame_spcFlushCnt : (s.blackFrame).spcFlushCnt = s.spcFlushCnt := rfl
@[simp] theorem State.blackFrame_latch : (s.blackFrame).latch = s.latch := rfl
@[simp] theorem State.blackFrame_phase : (s.blackFrame).phase = s.phase := rfl
@[simp] theorem State.blackFrame_gbk : (s.blackFrame).gbk = s.gbk := rfl
@[simp] theorem State.blackFrame_ranges : (s.blackFrame).ranges = s.ranges := rfl
@[simp] theorem State.blackFrame_spc : (s.blackFrame).spc = s.spc := rfl
@[simp] theorem State.blackFrame_mem : (s.blackFrame).mem = writePixels s.mem 0 (List.replicate s.stripLen black) := rfl
@[simp] theorem State.blackFrame_showReq : (s.blackFrame).showReq = s.showReq := rfl
@[simp] theorem State.blackFrame_stripLen : (s.blackFrame).stripLen = s.stripLen := rfl
@[simp] theorem State.blackFrame_dbgRst : (s.blackFrame).dbgRst = s.dbgRst := rfl
@[simp] theorem State.blackFrame_rstN : (s.blackFrame).rstN = s.rstN := rfl
@[simp] theorem State.blackFrame_nowMs : (s.blackFrame).nowMs = s.nowMs := rfl
@[simp] theorem State.blackFrame_showAck : (s.blackFrame).showAck = s.showAck := rfl
@[simp] theorem State.blackFrame_devIdx : (s.blackFrame).devIdx = s.devIdx := rfl
@[simp] theorem State.blackFrame_rng : (s.blackFrame).rng = s.rng := rfl
@[simp] theorem State.blackFrame_scanned : (s.blackFrame).scanned = s.scanned := rfl
@[simp] theorem State.blackFrame_rdata : (s.blackFrame).rdata = s.rdata := rfl
@[simp] theorem State.blackFrame_freeReads : (s.blackFrame).freeReads = s.freeReads := rfl
@[simp] theorem State.blackFrame_agenda : (s.blackFrame).agenda = s.agenda := rfl

/-! ## `State.recordError` -/

@[simp] theorem State.recordError_args (e : ErrCode) (info : Word) : (s.recordError e info).args = s.args := rfl
@[simp] theorem State.recordError_result (e : ErrCode) (info : Word) : (s.recordError e info).result = s.result := rfl
@[simp] theorem State.recordError_dbgMode (e : ErrCode) (info : Word) : (s.recordError e info).dbgMode = s.dbgMode := rfl
@[simp] theorem State.recordError_errs (e : ErrCode) (info : Word) : (s.recordError e info).errs = s.errs ||| e.bit := rfl
@[simp] theorem State.recordError_errInfo (e : ErrCode) (info : Word) : (s.recordError e info).errInfo = info := rfl
@[simp] theorem State.recordError_errCode (e : ErrCode) (info : Word) : (s.recordError e info).errCode = BitVec.ofNat 4 e.num := rfl
@[simp] theorem State.recordError_flushCnt (e : ErrCode) (info : Word) : (s.recordError e info).flushCnt = s.flushCnt := rfl
@[simp] theorem State.recordError_writeCnt (e : ErrCode) (info : Word) : (s.recordError e info).writeCnt = s.writeCnt := rfl
@[simp] theorem State.recordError_spcFlushCnt (e : ErrCode) (info : Word) : (s.recordError e info).spcFlushCnt = s.spcFlushCnt := rfl
@[simp] theorem State.recordError_latch (e : ErrCode) (info : Word) : (s.recordError e info).latch = s.latch := rfl
@[simp] theorem State.recordError_phase (e : ErrCode) (info : Word) : (s.recordError e info).phase = s.phase := rfl
@[simp] theorem State.recordError_gbk (e : ErrCode) (info : Word) : (s.recordError e info).gbk = s.gbk := rfl
@[simp] theorem State.recordError_ranges (e : ErrCode) (info : Word) : (s.recordError e info).ranges = s.ranges := rfl
@[simp] theorem State.recordError_spc (e : ErrCode) (info : Word) : (s.recordError e info).spc = s.spc := rfl
@[simp] theorem State.recordError_mem (e : ErrCode) (info : Word) : (s.recordError e info).mem = s.mem := rfl
@[simp] theorem State.recordError_showReq (e : ErrCode) (info : Word) : (s.recordError e info).showReq = s.showReq := rfl
@[simp] theorem State.recordError_stripLen (e : ErrCode) (info : Word) : (s.recordError e info).stripLen = s.stripLen := rfl
@[simp] theorem State.recordError_dbgRst (e : ErrCode) (info : Word) : (s.recordError e info).dbgRst = s.dbgRst := rfl
@[simp] theorem State.recordError_rstN (e : ErrCode) (info : Word) : (s.recordError e info).rstN = s.rstN := rfl
@[simp] theorem State.recordError_nowMs (e : ErrCode) (info : Word) : (s.recordError e info).nowMs = s.nowMs := rfl
@[simp] theorem State.recordError_showAck (e : ErrCode) (info : Word) : (s.recordError e info).showAck = s.showAck := rfl
@[simp] theorem State.recordError_devIdx (e : ErrCode) (info : Word) : (s.recordError e info).devIdx = s.devIdx := rfl
@[simp] theorem State.recordError_rng (e : ErrCode) (info : Word) : (s.recordError e info).rng = s.rng := rfl
@[simp] theorem State.recordError_scanned (e : ErrCode) (info : Word) : (s.recordError e info).scanned = s.scanned := rfl
@[simp] theorem State.recordError_rdata (e : ErrCode) (info : Word) : (s.recordError e info).rdata = s.rdata := rfl
@[simp] theorem State.recordError_freeReads (e : ErrCode) (info : Word) : (s.recordError e info).freeReads = s.freeReads := rfl
@[simp] theorem State.recordError_agenda (e : ErrCode) (info : Word) : (s.recordError e info).agenda = s.agenda := rfl

/-! ## `State.finish` -/

@[simp] theorem State.finish_args : (s.finish).args = s.args := rfl
@[simp] theorem State.finish_result : (s.finish).result = s.result := rfl
@[simp] theorem State.finish_dbgMode : (s.finish).dbgMode = s.dbgMode := rfl
@[simp] theorem State.finish_errs : (s.finish).errs = s.errs := rfl
@[simp] theorem State.finish_errInfo : (s.finish).errInfo = s.errInfo := rfl
@[simp] theorem State.finish_errCode : (s.finish).errCode = s.errCode := rfl
@[simp] theorem State.finish_flushCnt : (s.finish).flushCnt = s.flushCnt := rfl
@[simp] theorem State.finish_writeCnt : (s.finish).writeCnt = s.writeCnt := rfl
@[simp] theorem State.finish_spcFlushCnt : (s.finish).spcFlushCnt = s.spcFlushCnt := rfl
@[simp] theorem State.finish_latch : (s.finish).latch = s.latch := rfl
@[simp] theorem State.finish_phase : (s.finish).phase = .idle := rfl
@[simp] theorem State.finish_gbk : (s.finish).gbk = s.gbk := rfl
@[simp] theorem State.finish_ranges : (s.finish).ranges = s.ranges := rfl
@[simp] theorem State.finish_spc : (s.finish).spc = s.spc := rfl
@[simp] theorem State.finish_mem : (s.finish).mem = s.mem := rfl
@[simp] theorem State.finish_showReq : (s.finish).showReq = s.showReq := rfl
@[simp] theorem State.finish_stripLen : (s.finish).stripLen = s.stripLen := rfl
@[simp] theorem State.finish_dbgRst : (s.finish).dbgRst = s.dbgRst := rfl
@[simp] theorem State.finish_rstN : (s.finish).rstN = s.rstN := rfl
@[simp] theorem State.finish_nowMs : (s.finish).nowMs = s.nowMs := rfl
@[simp] theorem State.finish_showAck : (s.finish).showAck = s.showAck := rfl
@[simp] theorem State.finish_devIdx : (s.finish).devIdx = s.devIdx := rfl
@[simp] theorem State.finish_rng : (s.finish).rng = s.rng := rfl
@[simp] theorem State.finish_scanned : (s.finish).scanned = s.scanned := rfl
@[simp] theorem State.finish_rdata : (s.finish).rdata = s.rdata := rfl
@[simp] theorem State.finish_freeReads : (s.finish).freeReads = s.freeReads := rfl
@[simp] theorem State.finish_agenda : (s.finish).agenda = s.agenda := rfl

/-! ## `State.engineError` -/

@[simp] theorem State.engineError_args (e : ErrCode) : (s.engineError e).args = s.args := rfl
@[simp] theorem State.engineError_result (e : ErrCode) : (s.engineError e).result = s.result := rfl
@[simp] theorem State.engineError_dbgMode (e : ErrCode) : (s.engineError e).dbgMode = s.dbgMode := rfl
@[simp] theorem State.engineError_errs (e : ErrCode) : (s.engineError e).errs = s.errs ||| e.bit := rfl
@[simp] theorem State.engineError_errInfo (e : ErrCode) : (s.engineError e).errInfo = s.latch.word := rfl
@[simp] theorem State.engineError_errCode (e : ErrCode) : (s.engineError e).errCode = BitVec.ofNat 4 e.num := rfl
@[simp] theorem State.engineError_flushCnt (e : ErrCode) : (s.engineError e).flushCnt = s.flushCnt := rfl
@[simp] theorem State.engineError_writeCnt (e : ErrCode) : (s.engineError e).writeCnt = s.writeCnt := rfl
@[simp] theorem State.engineError_spcFlushCnt (e : ErrCode) : (s.engineError e).spcFlushCnt = s.spcFlushCnt := rfl
@[simp] theorem State.engineError_latch (e : ErrCode) : (s.engineError e).latch = s.latch := rfl
@[simp] theorem State.engineError_phase (e : ErrCode) : (s.engineError e).phase = .idle := rfl
@[simp] theorem State.engineError_gbk (e : ErrCode) : (s.engineError e).gbk = s.gbk := rfl
@[simp] theorem State.engineError_ranges (e : ErrCode) : (s.engineError e).ranges = s.ranges := rfl
@[simp] theorem State.engineError_spc (e : ErrCode) : (s.engineError e).spc = s.spc := rfl
@[simp] theorem State.engineError_mem (e : ErrCode) : (s.engineError e).mem = s.mem := rfl
@[simp] theorem State.engineError_showReq (e : ErrCode) : (s.engineError e).showReq = s.showReq := rfl
@[simp] theorem State.engineError_stripLen (e : ErrCode) : (s.engineError e).stripLen = s.stripLen := rfl
@[simp] theorem State.engineError_dbgRst (e : ErrCode) : (s.engineError e).dbgRst = s.dbgRst := rfl
@[simp] theorem State.engineError_rstN (e : ErrCode) : (s.engineError e).rstN = s.rstN := rfl
@[simp] theorem State.engineError_nowMs (e : ErrCode) : (s.engineError e).nowMs = s.nowMs := rfl
@[simp] theorem State.engineError_showAck (e : ErrCode) : (s.engineError e).showAck = s.showAck := rfl
@[simp] theorem State.engineError_devIdx (e : ErrCode) : (s.engineError e).devIdx = s.devIdx := rfl
@[simp] theorem State.engineError_rng (e : ErrCode) : (s.engineError e).rng = s.rng := rfl
@[simp] theorem State.engineError_scanned (e : ErrCode) : (s.engineError e).scanned = s.scanned := rfl
@[simp] theorem State.engineError_rdata (e : ErrCode) : (s.engineError e).rdata = s.rdata := rfl
@[simp] theorem State.engineError_freeReads (e : ErrCode) : (s.engineError e).freeReads = s.freeReads := rfl
@[simp] theorem State.engineError_agenda (e : ErrCode) : (s.engineError e).agenda = s.agenda := rfl

/-! ## `State.clearErrors` -/

@[simp] theorem State.clearErrors_args (v : Word) : (s.clearErrors v).args = s.args := rfl
@[simp] theorem State.clearErrors_result (v : Word) : (s.clearErrors v).result = s.result := rfl
@[simp] theorem State.clearErrors_dbgMode (v : Word) : (s.clearErrors v).dbgMode = s.dbgMode := rfl
@[simp] theorem State.clearErrors_errs (v : Word) : (s.clearErrors v).errs = s.errs &&& ~~~statusClearMask v := rfl
@[simp] theorem State.clearErrors_errInfo (v : Word) : (s.clearErrors v).errInfo = s.errInfo := rfl
@[simp] theorem State.clearErrors_errCode (v : Word) : (s.clearErrors v).errCode = s.errCode := rfl
@[simp] theorem State.clearErrors_flushCnt (v : Word) : (s.clearErrors v).flushCnt = s.flushCnt := rfl
@[simp] theorem State.clearErrors_writeCnt (v : Word) : (s.clearErrors v).writeCnt = s.writeCnt := rfl
@[simp] theorem State.clearErrors_spcFlushCnt (v : Word) : (s.clearErrors v).spcFlushCnt = s.spcFlushCnt := rfl
@[simp] theorem State.clearErrors_latch (v : Word) : (s.clearErrors v).latch = s.latch := rfl
@[simp] theorem State.clearErrors_phase (v : Word) : (s.clearErrors v).phase = s.phase := rfl
@[simp] theorem State.clearErrors_gbk (v : Word) : (s.clearErrors v).gbk = s.gbk := rfl
@[simp] theorem State.clearErrors_ranges (v : Word) : (s.clearErrors v).ranges = s.ranges := rfl
@[simp] theorem State.clearErrors_spc (v : Word) : (s.clearErrors v).spc = s.spc := rfl
@[simp] theorem State.clearErrors_mem (v : Word) : (s.clearErrors v).mem = s.mem := rfl
@[simp] theorem State.clearErrors_showReq (v : Word) : (s.clearErrors v).showReq = s.showReq := rfl
@[simp] theorem State.clearErrors_stripLen (v : Word) : (s.clearErrors v).stripLen = s.stripLen := rfl
@[simp] theorem State.clearErrors_dbgRst (v : Word) : (s.clearErrors v).dbgRst = s.dbgRst := rfl
@[simp] theorem State.clearErrors_rstN (v : Word) : (s.clearErrors v).rstN = s.rstN := rfl
@[simp] theorem State.clearErrors_nowMs (v : Word) : (s.clearErrors v).nowMs = s.nowMs := rfl
@[simp] theorem State.clearErrors_showAck (v : Word) : (s.clearErrors v).showAck = s.showAck := rfl
@[simp] theorem State.clearErrors_devIdx (v : Word) : (s.clearErrors v).devIdx = s.devIdx := rfl
@[simp] theorem State.clearErrors_rng (v : Word) : (s.clearErrors v).rng = s.rng := rfl
@[simp] theorem State.clearErrors_scanned (v : Word) : (s.clearErrors v).scanned = s.scanned := rfl
@[simp] theorem State.clearErrors_rdata (v : Word) : (s.clearErrors v).rdata = s.rdata := rfl
@[simp] theorem State.clearErrors_freeReads (v : Word) : (s.clearErrors v).freeReads = s.freeReads := rfl
@[simp] theorem State.clearErrors_agenda (v : Word) : (s.clearErrors v).agenda = s.agenda := rfl

/-! ## `State.acceptCommand` -/

@[simp] theorem State.acceptCommand_args (w : Word) : (s.acceptCommand w).args = s.args := rfl
@[simp] theorem State.acceptCommand_result (w : Word) : (s.acceptCommand w).result = s.result := rfl
@[simp] theorem State.acceptCommand_dbgMode (w : Word) : (s.acceptCommand w).dbgMode = s.dbgMode := rfl
@[simp] theorem State.acceptCommand_errs (w : Word) : (s.acceptCommand w).errs = s.errs := rfl
@[simp] theorem State.acceptCommand_errInfo (w : Word) : (s.acceptCommand w).errInfo = s.errInfo := rfl
@[simp] theorem State.acceptCommand_errCode (w : Word) : (s.acceptCommand w).errCode = s.errCode := rfl
@[simp] theorem State.acceptCommand_flushCnt (w : Word) : (s.acceptCommand w).flushCnt = s.flushCnt := rfl
@[simp] theorem State.acceptCommand_writeCnt (w : Word) : (s.acceptCommand w).writeCnt = s.writeCnt := rfl
@[simp] theorem State.acceptCommand_spcFlushCnt (w : Word) : (s.acceptCommand w).spcFlushCnt = s.spcFlushCnt := rfl
@[simp] theorem State.acceptCommand_latch (w : Word) : (s.acceptCommand w).latch = Latch.mk w s.args s.dbgMode := rfl
@[simp] theorem State.acceptCommand_phase (w : Word) : (s.acceptCommand w).phase = .exec := rfl
@[simp] theorem State.acceptCommand_gbk (w : Word) : (s.acceptCommand w).gbk = s.gbk := rfl
@[simp] theorem State.acceptCommand_ranges (w : Word) : (s.acceptCommand w).ranges = s.ranges := rfl
@[simp] theorem State.acceptCommand_spc (w : Word) : (s.acceptCommand w).spc = s.spc := rfl
@[simp] theorem State.acceptCommand_mem (w : Word) : (s.acceptCommand w).mem = s.mem := rfl
@[simp] theorem State.acceptCommand_showReq (w : Word) : (s.acceptCommand w).showReq = s.showReq := rfl
@[simp] theorem State.acceptCommand_stripLen (w : Word) : (s.acceptCommand w).stripLen = s.stripLen := rfl
@[simp] theorem State.acceptCommand_dbgRst (w : Word) : (s.acceptCommand w).dbgRst = s.dbgRst := rfl
@[simp] theorem State.acceptCommand_rstN (w : Word) : (s.acceptCommand w).rstN = s.rstN := rfl
@[simp] theorem State.acceptCommand_nowMs (w : Word) : (s.acceptCommand w).nowMs = s.nowMs := rfl
@[simp] theorem State.acceptCommand_showAck (w : Word) : (s.acceptCommand w).showAck = s.showAck := rfl
@[simp] theorem State.acceptCommand_devIdx (w : Word) : (s.acceptCommand w).devIdx = s.devIdx := rfl
@[simp] theorem State.acceptCommand_rng (w : Word) : (s.acceptCommand w).rng = s.rng := rfl
@[simp] theorem State.acceptCommand_scanned (w : Word) : (s.acceptCommand w).scanned = s.scanned := rfl
@[simp] theorem State.acceptCommand_rdata (w : Word) : (s.acceptCommand w).rdata = s.rdata := rfl
@[simp] theorem State.acceptCommand_freeReads (w : Word) : (s.acceptCommand w).freeReads = s.freeReads := rfl
@[simp] theorem State.acceptCommand_agenda (w : Word) : (s.acceptCommand w).agenda = s.agenda := rfl

/-! ## `State.emitShow` -/

@[simp] theorem State.emitShow_args : (s.emitShow).args = s.args := rfl
@[simp] theorem State.emitShow_result : (s.emitShow).result = s.result := rfl
@[simp] theorem State.emitShow_dbgMode : (s.emitShow).dbgMode = s.dbgMode := rfl
@[simp] theorem State.emitShow_errs : (s.emitShow).errs = s.errs := rfl
@[simp] theorem State.emitShow_errInfo : (s.emitShow).errInfo = s.errInfo := rfl
@[simp] theorem State.emitShow_errCode : (s.emitShow).errCode = s.errCode := rfl
@[simp] theorem State.emitShow_flushCnt : (s.emitShow).flushCnt = s.flushCnt + 1 := rfl
@[simp] theorem State.emitShow_writeCnt : (s.emitShow).writeCnt = s.writeCnt := rfl
@[simp] theorem State.emitShow_spcFlushCnt : (s.emitShow).spcFlushCnt = s.spcFlushCnt := rfl
@[simp] theorem State.emitShow_latch : (s.emitShow).latch = s.latch := rfl
@[simp] theorem State.emitShow_phase : (s.emitShow).phase = .waitShow := rfl
@[simp] theorem State.emitShow_gbk : (s.emitShow).gbk = s.gbk := rfl
@[simp] theorem State.emitShow_ranges : (s.emitShow).ranges = s.ranges := rfl
@[simp] theorem State.emitShow_spc : (s.emitShow).spc = s.spc := rfl
@[simp] theorem State.emitShow_mem : (s.emitShow).mem = s.mem := rfl
@[simp] theorem State.emitShow_showReq : (s.emitShow).showReq = true := rfl
@[simp] theorem State.emitShow_stripLen : (s.emitShow).stripLen = s.stripLen := rfl
@[simp] theorem State.emitShow_dbgRst : (s.emitShow).dbgRst = s.dbgRst := rfl
@[simp] theorem State.emitShow_rstN : (s.emitShow).rstN = s.rstN := rfl
@[simp] theorem State.emitShow_nowMs : (s.emitShow).nowMs = s.nowMs := rfl
@[simp] theorem State.emitShow_showAck : (s.emitShow).showAck = s.showAck := rfl
@[simp] theorem State.emitShow_devIdx : (s.emitShow).devIdx = s.devIdx := rfl
@[simp] theorem State.emitShow_rng : (s.emitShow).rng = s.rng := rfl
@[simp] theorem State.emitShow_scanned : (s.emitShow).scanned = s.scanned := rfl
@[simp] theorem State.emitShow_rdata : (s.emitShow).rdata = s.rdata := rfl
@[simp] theorem State.emitShow_freeReads : (s.emitShow).freeReads = s.freeReads := rfl
@[simp] theorem State.emitShow_agenda : (s.emitShow).agenda = s.agenda := rfl

/-! ## `State.emitSpcShow` -/

@[simp] theorem State.emitSpcShow_args (u : Nat) (S : SpcUnit) : (s.emitSpcShow u S).args = s.args := rfl
@[simp] theorem State.emitSpcShow_result (u : Nat) (S : SpcUnit) : (s.emitSpcShow u S).result = s.result := rfl
@[simp] theorem State.emitSpcShow_dbgMode (u : Nat) (S : SpcUnit) : (s.emitSpcShow u S).dbgMode = s.dbgMode := rfl
@[simp] theorem State.emitSpcShow_errs (u : Nat) (S : SpcUnit) : (s.emitSpcShow u S).errs = s.errs := rfl
@[simp] theorem State.emitSpcShow_errInfo (u : Nat) (S : SpcUnit) : (s.emitSpcShow u S).errInfo = s.errInfo := rfl
@[simp] theorem State.emitSpcShow_errCode (u : Nat) (S : SpcUnit) : (s.emitSpcShow u S).errCode = s.errCode := rfl
@[simp] theorem State.emitSpcShow_flushCnt (u : Nat) (S : SpcUnit) : (s.emitSpcShow u S).flushCnt = s.flushCnt := rfl
@[simp] theorem State.emitSpcShow_writeCnt (u : Nat) (S : SpcUnit) : (s.emitSpcShow u S).writeCnt = s.writeCnt := rfl
@[simp] theorem State.emitSpcShow_spcFlushCnt (u : Nat) (S : SpcUnit) : (s.emitSpcShow u S).spcFlushCnt = s.spcFlushCnt + 1 := rfl
@[simp] theorem State.emitSpcShow_latch (u : Nat) (S : SpcUnit) : (s.emitSpcShow u S).latch = s.latch := rfl
@[simp] theorem State.emitSpcShow_phase (u : Nat) (S : SpcUnit) : (s.emitSpcShow u S).phase = .waitSpc u := rfl
@[simp] theorem State.emitSpcShow_gbk (u : Nat) (S : SpcUnit) : (s.emitSpcShow u S).gbk = s.gbk := rfl
@[simp] theorem State.emitSpcShow_ranges (u : Nat) (S : SpcUnit) : (s.emitSpcShow u S).ranges = s.ranges := rfl
@[simp] theorem State.emitSpcShow_spc (u : Nat) (S : SpcUnit) : (s.emitSpcShow u S).spc = s.spc.set u { S with showReq := true } := rfl
@[simp] theorem State.emitSpcShow_mem (u : Nat) (S : SpcUnit) : (s.emitSpcShow u S).mem = s.mem := rfl
@[simp] theorem State.emitSpcShow_showReq (u : Nat) (S : SpcUnit) : (s.emitSpcShow u S).showReq = s.showReq := rfl
@[simp] theorem State.emitSpcShow_stripLen (u : Nat) (S : SpcUnit) : (s.emitSpcShow u S).stripLen = s.stripLen := rfl
@[simp] theorem State.emitSpcShow_dbgRst (u : Nat) (S : SpcUnit) : (s.emitSpcShow u S).dbgRst = s.dbgRst := rfl
@[simp] theorem State.emitSpcShow_rstN (u : Nat) (S : SpcUnit) : (s.emitSpcShow u S).rstN = s.rstN := rfl
@[simp] theorem State.emitSpcShow_nowMs (u : Nat) (S : SpcUnit) : (s.emitSpcShow u S).nowMs = s.nowMs := rfl
@[simp] theorem State.emitSpcShow_showAck (u : Nat) (S : SpcUnit) : (s.emitSpcShow u S).showAck = s.showAck := rfl
@[simp] theorem State.emitSpcShow_devIdx (u : Nat) (S : SpcUnit) : (s.emitSpcShow u S).devIdx = s.devIdx := rfl
@[simp] theorem State.emitSpcShow_rng (u : Nat) (S : SpcUnit) : (s.emitSpcShow u S).rng = s.rng := rfl
@[simp] theorem State.emitSpcShow_scanned (u : Nat) (S : SpcUnit) : (s.emitSpcShow u S).scanned = s.scanned := rfl
@[simp] theorem State.emitSpcShow_rdata (u : Nat) (S : SpcUnit) : (s.emitSpcShow u S).rdata = s.rdata := rfl
@[simp] theorem State.emitSpcShow_freeReads (u : Nat) (S : SpcUnit) : (s.emitSpcShow u S).freeReads = s.freeReads := rfl
@[simp] theorem State.emitSpcShow_agenda (u : Nat) (S : SpcUnit) : (s.emitSpcShow u S).agenda = s.agenda := rfl

/-! ## `State.endShow` -/

@[simp] theorem State.endShow_args : (s.endShow).args = s.args := rfl
@[simp] theorem State.endShow_result : (s.endShow).result = s.result := rfl
@[simp] theorem State.endShow_dbgMode : (s.endShow).dbgMode = s.dbgMode := rfl
@[simp] theorem State.endShow_errs : (s.endShow).errs = s.errs := rfl
@[simp] theorem State.endShow_errInfo : (s.endShow).errInfo = s.errInfo := rfl
@[simp] theorem State.endShow_errCode : (s.endShow).errCode = s.errCode := rfl
@[simp] theorem State.endShow_flushCnt : (s.endShow).flushCnt = s.flushCnt := rfl
@[simp] theorem State.endShow_writeCnt : (s.endShow).writeCnt = s.writeCnt := rfl
@[simp] theorem State.endShow_spcFlushCnt : (s.endShow).spcFlushCnt = s.spcFlushCnt := rfl
@[simp] theorem State.endShow_latch : (s.endShow).latch = s.latch := rfl
@[simp] theorem State.endShow_phase : (s.endShow).phase = .idle := rfl
@[simp] theorem State.endShow_gbk : (s.endShow).gbk = s.gbk := rfl
@[simp] theorem State.endShow_ranges : (s.endShow).ranges = s.ranges := rfl
@[simp] theorem State.endShow_spc : (s.endShow).spc = s.spc := rfl
@[simp] theorem State.endShow_mem : (s.endShow).mem = s.mem := rfl
@[simp] theorem State.endShow_showReq : (s.endShow).showReq = false := rfl
@[simp] theorem State.endShow_stripLen : (s.endShow).stripLen = s.stripLen := rfl
@[simp] theorem State.endShow_dbgRst : (s.endShow).dbgRst = s.dbgRst := rfl
@[simp] theorem State.endShow_rstN : (s.endShow).rstN = s.rstN := rfl
@[simp] theorem State.endShow_nowMs : (s.endShow).nowMs = s.nowMs := rfl
@[simp] theorem State.endShow_showAck : (s.endShow).showAck = s.showAck := rfl
@[simp] theorem State.endShow_devIdx : (s.endShow).devIdx = s.devIdx := rfl
@[simp] theorem State.endShow_rng : (s.endShow).rng = s.rng := rfl
@[simp] theorem State.endShow_scanned : (s.endShow).scanned = s.scanned := rfl
@[simp] theorem State.endShow_rdata : (s.endShow).rdata = s.rdata := rfl
@[simp] theorem State.endShow_freeReads : (s.endShow).freeReads = s.freeReads := rfl
@[simp] theorem State.endShow_agenda : (s.endShow).agenda = s.agenda := rfl

/-! ## `State.endSpcShow` -/

@[simp] theorem State.endSpcShow_args (u : Nat) (S : SpcUnit) : (s.endSpcShow u S).args = s.args := rfl
@[simp] theorem State.endSpcShow_result (u : Nat) (S : SpcUnit) : (s.endSpcShow u S).result = s.result := rfl
@[simp] theorem State.endSpcShow_dbgMode (u : Nat) (S : SpcUnit) : (s.endSpcShow u S).dbgMode = s.dbgMode := rfl
@[simp] theorem State.endSpcShow_errs (u : Nat) (S : SpcUnit) : (s.endSpcShow u S).errs = s.errs := rfl
@[simp] theorem State.endSpcShow_errInfo (u : Nat) (S : SpcUnit) : (s.endSpcShow u S).errInfo = s.errInfo := rfl
@[simp] theorem State.endSpcShow_errCode (u : Nat) (S : SpcUnit) : (s.endSpcShow u S).errCode = s.errCode := rfl
@[simp] theorem State.endSpcShow_flushCnt (u : Nat) (S : SpcUnit) : (s.endSpcShow u S).flushCnt = s.flushCnt := rfl
@[simp] theorem State.endSpcShow_writeCnt (u : Nat) (S : SpcUnit) : (s.endSpcShow u S).writeCnt = s.writeCnt := rfl
@[simp] theorem State.endSpcShow_spcFlushCnt (u : Nat) (S : SpcUnit) : (s.endSpcShow u S).spcFlushCnt = s.spcFlushCnt := rfl
@[simp] theorem State.endSpcShow_latch (u : Nat) (S : SpcUnit) : (s.endSpcShow u S).latch = s.latch := rfl
@[simp] theorem State.endSpcShow_phase (u : Nat) (S : SpcUnit) : (s.endSpcShow u S).phase = .idle := rfl
@[simp] theorem State.endSpcShow_gbk (u : Nat) (S : SpcUnit) : (s.endSpcShow u S).gbk = s.gbk := rfl
@[simp] theorem State.endSpcShow_ranges (u : Nat) (S : SpcUnit) : (s.endSpcShow u S).ranges = s.ranges := rfl
@[simp] theorem State.endSpcShow_spc (u : Nat) (S : SpcUnit) : (s.endSpcShow u S).spc = s.spc.set u { S with showReq := false } := rfl
@[simp] theorem State.endSpcShow_mem (u : Nat) (S : SpcUnit) : (s.endSpcShow u S).mem = s.mem := rfl
@[simp] theorem State.endSpcShow_showReq (u : Nat) (S : SpcUnit) : (s.endSpcShow u S).showReq = s.showReq := rfl
@[simp] theorem State.endSpcShow_stripLen (u : Nat) (S : SpcUnit) : (s.endSpcShow u S).stripLen = s.stripLen := rfl
@[simp] theorem State.endSpcShow_dbgRst (u : Nat) (S : SpcUnit) : (s.endSpcShow u S).dbgRst = s.dbgRst := rfl
@[simp] theorem State.endSpcShow_rstN (u : Nat) (S : SpcUnit) : (s.endSpcShow u S).rstN = s.rstN := rfl
@[simp] theorem State.endSpcShow_nowMs (u : Nat) (S : SpcUnit) : (s.endSpcShow u S).nowMs = s.nowMs := rfl
@[simp] theorem State.endSpcShow_showAck (u : Nat) (S : SpcUnit) : (s.endSpcShow u S).showAck = s.showAck := rfl
@[simp] theorem State.endSpcShow_devIdx (u : Nat) (S : SpcUnit) : (s.endSpcShow u S).devIdx = s.devIdx := rfl
@[simp] theorem State.endSpcShow_rng (u : Nat) (S : SpcUnit) : (s.endSpcShow u S).rng = s.rng := rfl
@[simp] theorem State.endSpcShow_scanned (u : Nat) (S : SpcUnit) : (s.endSpcShow u S).scanned = s.scanned := rfl
@[simp] theorem State.endSpcShow_rdata (u : Nat) (S : SpcUnit) : (s.endSpcShow u S).rdata = s.rdata := rfl
@[simp] theorem State.endSpcShow_freeReads (u : Nat) (S : SpcUnit) : (s.endSpcShow u S).freeReads = s.freeReads := rfl
@[simp] theorem State.endSpcShow_agenda (u : Nat) (S : SpcUnit) : (s.endSpcShow u S).agenda = s.agenda := rfl

/-! ## `State.placeCommand` -/

@[simp] theorem State.placeCommand_args (w : Word) : (s.placeCommand w).args = s.args := rfl
@[simp] theorem State.placeCommand_result (w : Word) : (s.placeCommand w).result = s.result := rfl
@[simp] theorem State.placeCommand_dbgMode (w : Word) : (s.placeCommand w).dbgMode = s.dbgMode := rfl
@[simp] theorem State.placeCommand_errs (w : Word) : (s.placeCommand w).errs = s.errs := rfl
@[simp] theorem State.placeCommand_errInfo (w : Word) : (s.placeCommand w).errInfo = s.errInfo := rfl
@[simp] theorem State.placeCommand_errCode (w : Word) : (s.placeCommand w).errCode = s.errCode := rfl
@[simp] theorem State.placeCommand_flushCnt (w : Word) : (s.placeCommand w).flushCnt = s.flushCnt := rfl
@[simp] theorem State.placeCommand_writeCnt (w : Word) : (s.placeCommand w).writeCnt = s.writeCnt := rfl
@[simp] theorem State.placeCommand_spcFlushCnt (w : Word) : (s.placeCommand w).spcFlushCnt = s.spcFlushCnt := rfl
@[simp] theorem State.placeCommand_latch (w : Word) : (s.placeCommand w).latch = Latch.mk w s.args s.dbgMode := rfl
@[simp] theorem State.placeCommand_phase (w : Word) : (s.placeCommand w).phase = .exec := rfl
@[simp] theorem State.placeCommand_gbk (w : Word) : (s.placeCommand w).gbk = s.gbk := rfl
@[simp] theorem State.placeCommand_ranges (w : Word) : (s.placeCommand w).ranges = s.ranges := rfl
@[simp] theorem State.placeCommand_spc (w : Word) : (s.placeCommand w).spc = s.spc := rfl
@[simp] theorem State.placeCommand_mem (w : Word) : (s.placeCommand w).mem = s.mem := rfl
@[simp] theorem State.placeCommand_showReq (w : Word) : (s.placeCommand w).showReq = s.showReq := rfl
@[simp] theorem State.placeCommand_stripLen (w : Word) : (s.placeCommand w).stripLen = s.stripLen := rfl
@[simp] theorem State.placeCommand_dbgRst (w : Word) : (s.placeCommand w).dbgRst = s.dbgRst := rfl
@[simp] theorem State.placeCommand_rstN (w : Word) : (s.placeCommand w).rstN = true := rfl
@[simp] theorem State.placeCommand_nowMs (w : Word) : (s.placeCommand w).nowMs = s.nowMs := rfl
@[simp] theorem State.placeCommand_showAck (w : Word) : (s.placeCommand w).showAck = s.showAck := rfl
@[simp] theorem State.placeCommand_devIdx (w : Word) : (s.placeCommand w).devIdx = s.devIdx := rfl
@[simp] theorem State.placeCommand_rng (w : Word) : (s.placeCommand w).rng = s.rng := rfl
@[simp] theorem State.placeCommand_scanned (w : Word) : (s.placeCommand w).scanned = s.scanned := rfl
@[simp] theorem State.placeCommand_rdata (w : Word) : (s.placeCommand w).rdata = s.rdata := rfl
@[simp] theorem State.placeCommand_freeReads (w : Word) : (s.placeCommand w).freeReads = s.freeReads := rfl
@[simp] theorem State.placeCommand_agenda (w : Word) : (s.placeCommand w).agenda = [] := rfl

end Sys2Proof.Machine
end

