-- ==== Sys2Proof/Laws/Memory.lean ====
section
/-! SUPPORT. The laws of the frame store: every operation keeps the canonical form, a read after a write to the same place
gives the value written, and every other byte is left alone. -/

namespace Sys2Proof.Machine

open Sys2Proof

/-! ## One byte -/

theorem Memory.wf_cons (k : Nat) (v : Byte) (m : Memory) :
    Memory.wf ((k, v) :: m) = true ↔ v ≠ Memory.unlisted ∧ (∀ c ∈ m, k < c.1) ∧ Memory.wf m = true := by
  simp [Memory.wf, and_assoc]

@[simp] theorem Memory.wf_nil : Memory.wf [] = true := rfl

@[simp] theorem Memory.get_nil (a : Nat) : Memory.get [] a = Memory.unlisted := rfl

/-- An offset below every listed one is unlisted. -/
theorem Memory.get_below (m : Memory) (a : Nat) (h : ∀ c ∈ m, a < c.1) : Memory.get m a = Memory.unlisted := by
  induction m with
  | nil => rfl
  | cons c m ih =>
    have hc := h c (by simp)
    simp only [Memory.get, if_neg (show c.1 ≠ a by omega)]
    exact ih fun d hd => h d (by simp [hd])

/-- Which offsets a byte write can list: the old ones and its own. -/
theorem Memory.mem_set (m : Memory) (a : Nat) (b : Byte) (c : Host.Cell) (h : c ∈ Memory.set m a b) :
    c ∈ m ∨ c.1 = a := by
  induction m with
  | nil =>
    simp only [Memory.set] at h
    split at h <;> simp_all
  | cons d m ih =>
    obtain ⟨k, v⟩ := d
    simp only [Memory.set] at h
    split at h
    · split at h
      · exact .inl h
      · rcases List.mem_cons.mp h with rfl | h
        · exact .inr rfl
        · exact .inl h
    · split at h
      · split at h
        · exact .inl (List.mem_cons_of_mem _ h)
        · rcases List.mem_cons.mp h with rfl | h
          · exact .inr rfl
          · exact .inl (List.mem_cons_of_mem _ h)
      · rcases List.mem_cons.mp h with rfl | h
        · exact .inl (by simp)
        · exact (ih h).imp (List.mem_cons_of_mem _) id

/-- A byte write keeps the canonical form. -/
theorem Memory.wf_set (m : Memory) (a : Nat) (b : Byte) (h : Memory.wf m = true) :
    Memory.wf (Memory.set m a b) = true := by
  induction m with
  | nil => simp only [Memory.set]; split <;> simp_all [Memory.wf_cons]
  | cons d m ih =>
    obtain ⟨k, v⟩ := d
    obtain ⟨hv, hk, hm⟩ := (Memory.wf_cons k v m).mp h
    simp only [Memory.set]
    split
    · split
      · exact h
      · rename_i hlt hb
        refine (Memory.wf_cons _ _ _).mpr ⟨hb, fun c hc => ?_, h⟩
        rcases List.mem_cons.mp hc with rfl | hc
        · exact hlt
        · exact Nat.lt_trans hlt (hk c hc)
    · split
      · rename_i _ heq
        subst heq
        split
        · exact hm
        · rename_i hb
          exact (Memory.wf_cons _ _ _).mpr ⟨hb, hk, hm⟩
      · refine (Memory.wf_cons _ _ _).mpr ⟨hv, fun c hc => ?_, ih hm⟩
        rcases Memory.mem_set m a b c hc with hc | hc
        · exact hk c hc
        · omega

/-- A byte read after a byte write: the value written at its own offset, the old value anywhere else. -/
theorem Memory.get_set (m : Memory) (a a' : Nat) (b : Byte) (h : Memory.wf m = true) :
    Memory.get (Memory.set m a b) a' = if a' = a then b else Memory.get m a' := by
  induction m with
  | nil =>
    simp only [Memory.set]
    split
    · rename_i hb; split <;> simp [hb]
    · simp only [Memory.get]; split <;> split <;> simp_all
  | cons d m ih =>
    obtain ⟨k, v⟩ := d
    obtain ⟨hv, hk, hm⟩ := (Memory.wf_cons k v m).mp h
    simp only [Memory.set]
    split
    · rename_i hlt
      have hbelow : ∀ x, x ≤ a → Memory.get ((k, v) :: m) x = Memory.unlisted := fun x hx =>
        Memory.get_below _ _ fun c hc => by
          rcases List.mem_cons.mp hc with rfl | hc
          · exact Nat.lt_of_le_of_lt hx hlt
          · exact Nat.lt_of_le_of_lt hx (Nat.lt_trans hlt (hk c hc))
      split
      · rename_i hb
        split
        · rename_i he; rw [he, hbelow a (Nat.le_refl a), hb]
        · rfl
      · rw [Memory.get]
        by_cases he : a = a'
        · simp [he]
        · rw [if_neg he, if_neg (Ne.symm he)]
    · split
      · rename_i _ heq
        subst heq
        by_cases he : a = a'
        · subst he
          split
          · rename_i hb
            rw [Memory.get_below m a hk, if_pos rfl, hb]
          · simp [Memory.get]
        · split <;> simp only [Memory.get, if_neg he, if_neg (Ne.symm he)]
      · rename_i h1 h2
        simp only [Memory.get]
        by_cases he : k = a'
        · subst he
          simp [Ne.symm h2]
        · simp only [if_neg he]
          exact ih hm

/-! ## One pixel -/

theorem wf_writePixel (m : Memory) (i : Nat) (c : Color) (h : Memory.wf m = true) :
    Memory.wf (writePixel m i c) = true :=
  Memory.wf_set _ _ _ (Memory.wf_set _ _ _ (Memory.wf_set _ _ _ (Memory.wf_set _ _ _ h)))

/-- Everything a pixel write does to a byte: its own four offsets hold the byte lanes of the colour (20_memory R206), every
other byte is as before. -/
theorem get_writePixel (m : Memory) (i a : Nat) (c : Color) (h : Memory.wf m = true) :
    Memory.get (writePixel m i c) a =
      if a = pixelAddr i then c.extractLsb' 0 8
      else if a = pixelAddr i + 1 then c.extractLsb' 8 8
      else if a = pixelAddr i + 2 then c.extractLsb' 16 8
      else if a = pixelAddr i + 3 then c.extractLsb' 24 8
      else Memory.get m a := by
  have h0 := Memory.wf_set m (pixelAddr i) (c.extractLsb' 0 8) h
  have h1 := Memory.wf_set _ (pixelAddr i + 1) (c.extractLsb' 8 8) h0
  have h2 := Memory.wf_set _ (pixelAddr i + 2) (c.extractLsb' 16 8) h1
  unfold writePixel
  rw [Memory.get_set _ _ _ _ h2, Memory.get_set _ _ _ _ h1, Memory.get_set _ _ _ _ h0, Memory.get_set _ _ _ _ h]
  by_cases a0 : a = pixelAddr i
  · subst a0; simp
  by_cases a1 : a = pixelAddr i + 1
  · subst a1; simp
  by_cases a2 : a = pixelAddr i + 2
  · subst a2; simp
  by_cases a3 : a = pixelAddr i + 3
  · subst a3; simp
  simp [a0, a1, a2, a3]

theorem colour_of_lanes (c : Color) :
    c.extractLsb' 24 8 ++ c.extractLsb' 16 8 ++ c.extractLsb' 8 8 ++ c.extractLsb' 0 8 = c := by
  apply BitVec.eq_of_getLsbD_eq
  intro i hi
  simp only [BitVec.getLsbD_append, BitVec.getLsbD_extractLsb']
  by_cases h0 : i < 8
  · simp [h0]
  by_cases h1 : i < 16
  · simp [h0, show i - 8 < 8 by omega, show 8 + (i - 8) = i by omega]
  by_cases h2 : i < 24
  · simp [h0, show ¬ i - 8 < 8 by omega, show i - 8 - 8 < 8 by omega, show 16 + (i - 8 - 8) = i by omega]
  · simp [h0, show ¬ i - 8 < 8 by omega, show ¬ i - 8 - 8 < 8 by omega, show i - 8 - 8 - 8 < 8 by omega,
      show 24 + (i - 8 - 8 - 8) = i by omega]

/-- A pixel read after a pixel write: the colour written, or the old colour of another pixel (20_memory R210). -/
theorem readPixel_writePixel (m : Memory) (i j : Nat) (c : Color) (h : Memory.wf m = true) :
    readPixel (writePixel m i c) j = if j = i then c else readPixel m j := by
  unfold readPixel
  simp only [get_writePixel _ _ _ _ h]
  by_cases e : j = i
  · subst e
    simp [colour_of_lanes]
  · rw [if_neg e]
    have hne : ∀ x y : Nat, x < 4 → y < 4 → pixelAddr j + x ≠ pixelAddr i + y := by
      intro x y hx hy
      simp only [pixelAddr]
      omega
    have h0 := fun x hx => hne x 0 hx (by omega)
    have h1 := fun x hx => hne x 1 hx (by omega)
    have h2 := fun x hx => hne x 2 hx (by omega)
    have h3 := fun x hx => hne x 3 hx (by omega)
    simp only [Nat.add_zero] at h0
    have g0 := h0 0 (by omega); have g1 := h1 0 (by omega); have g2 := h2 0 (by omega); have g3 := h3 0 (by omega)
    simp only [Nat.add_zero] at g0 g1 g2 g3
    rw [if_neg (h0 3 (by omega)), if_neg (h1 3 (by omega)), if_neg (h2 3 (by omega)), if_neg (h3 3 (by omega)),
      if_neg (h0 2 (by omega)), if_neg (h1 2 (by omega)), if_neg (h2 2 (by omega)), if_neg (h3 2 (by omega)),
      if_neg (h0 1 (by omega)), if_neg (h1 1 (by omega)), if_neg (h2 1 (by omega)), if_neg (h3 1 (by omega)),
      if_neg g0, if_neg g1, if_neg g2, if_neg g3]

theorem mem_writePixel (m : Memory) (i : Nat) (c : Color) (x : Host.Cell) (h : x ∈ writePixel m i c) :
    x ∈ m ∨ (pixelAddr i ≤ x.1 ∧ x.1 < pixelAddr i + 4) := by
  unfold writePixel at h
  rcases Memory.mem_set _ _ _ _ h with h | h
  · rcases Memory.mem_set _ _ _ _ h with h | h
    · rcases Memory.mem_set _ _ _ _ h with h | h
      · rcases Memory.mem_set _ _ _ _ h with h | h
        · exact .inl h
        · exact .inr (by omega)
      · exact .inr (by omega)
    · exact .inr (by omega)
  · exact .inr (by omega)

/-! ## Successive pixels -/

theorem wf_writePixels (cs : List Color) (m : Memory) (i : Nat) (h : Memory.wf m = true) :
    Memory.wf (writePixels m i cs) = true := by
  induction cs generalizing m i with
  | nil => exact h
  | cons c cs ih => exact ih _ _ (wf_writePixel m i c h)

/-- Everything a run of pixel writes does: the pixels of the run hold the colours in order, every other pixel is as before
(43_range_update R520). -/
theorem readPixel_writePixels (cs : List Color) (m : Memory) (i j : Nat) (h : Memory.wf m = true) :
    readPixel (writePixels m i cs) j = if i ≤ j ∧ j < i + cs.length then cs.getD (j - i) 0 else readPixel m j := by
  induction cs generalizing m i with
  | nil => rw [if_neg (by simp only [List.length_nil]; omega)]; rfl
  | cons c cs ih =>
    rw [writePixels, ih _ _ (wf_writePixel m i c h), readPixel_writePixel m i j c h]
    simp only [List.length_cons]
    by_cases e : j = i
    · subst e
      rw [if_neg (by omega), if_pos rfl, if_pos (by omega)]
      simp
    · rw [if_neg e]
      by_cases h1 : i + 1 ≤ j ∧ j < i + 1 + cs.length
      · rw [if_pos h1, if_pos (by omega), show j - i = (j - (i + 1)) + 1 by omega]
        simp
      · rw [if_neg h1, if_neg (by omega)]

/-- Every byte outside the run of pixels is as before. -/
theorem get_writePixels_outside (cs : List Color) (m : Memory) (i a : Nat) (h : Memory.wf m = true)
    (ha : a < pixelAddr i ∨ pixelAddr (i + cs.length) ≤ a) :
    Memory.get (writePixels m i cs) a = Memory.get m a := by
  induction cs generalizing m i with
  | nil => rfl
  | cons c cs ih =>
    simp only [List.length_cons] at ha
    have hp : ∀ n, pixelAddr n = Config.frameBase + 4 * n := fun _ => rfl
    have e1 := hp i; have e2 := hp (i + 1); have e3 := hp (i + (cs.length + 1)); have e4 := hp (i + 1 + cs.length)
    rw [writePixels, ih _ _ (wf_writePixel m i c h) (by omega), get_writePixel m i a c h,
      if_neg (by omega), if_neg (by omega), if_neg (by omega), if_neg (by omega)]

theorem mem_writePixels (cs : List Color) (m : Memory) (i : Nat) (x : Host.Cell) (h : x ∈ writePixels m i cs) :
    x ∈ m ∨ (pixelAddr i ≤ x.1 ∧ x.1 < pixelAddr (i + cs.length)) := by
  induction cs generalizing m i with
  | nil => exact .inl h
  | cons c cs ih =>
    rcases ih _ _ h with h | h
    · rcases mem_writePixel m i c x h with h | h
      · exact .inl h
      · simp only [pixelAddr, List.length_cons] at *
        exact .inr (by omega)
    · simp only [pixelAddr, List.length_cons] at *
      exact .inr (by omega)

/-- A run of pixel writes that stays in the strip keeps the frame store canonical and inside the frame. -/
theorem frameOk_writePixels (cs : List Color) (m : Memory) (i stripLen : Nat) (h : FrameOk stripLen m)
    (hi : i + cs.length ≤ stripLen) : FrameOk stripLen (writePixels m i cs) := by
  refine ⟨wf_writePixels cs m i h.1, fun x hx => ?_⟩
  rcases mem_writePixels cs m i x hx with hx | hx
  · exact h.2 x hx
  · simp only [pixelAddr] at hx
    omega

/-- The memory right after reset has the canonical form. -/
theorem reset_memory_wf (p : Config.Params) : Memory.wf (State.resetWith p).mem = true := rfl

end Sys2Proof.Machine
end

