-- ==== Sys2Proof/Laws/Ops.lean ====
section
/-! SUPPORT. One lemma for each shared operation, saying once everything it can do. -/

namespace Sys2Proof.Machine

open Sys2Proof

/-! ## Colours -/

theorem append4_lane (w r g b : Byte) :
    (w ++ r ++ g ++ b).extractLsb' 24 8 = w ∧ (w ++ r ++ g ++ b).extractLsb' 16 8 = r ∧
      (w ++ r ++ g ++ b).extractLsb' 8 8 = g ∧ (w ++ r ++ g ++ b).extractLsb' 0 8 = b := by
  refine ⟨?_, ?_, ?_, ?_⟩ <;>
  · apply BitVec.eq_of_getLsbD_eq
    intro i hi
    simp only [BitVec.getLsbD_append, BitVec.getLsbD_extractLsb', hi, decide_true, Bool.true_and]
    first
      | rw [if_neg (by omega), if_neg (by omega), if_neg (by omega)]; congr 1; omega
      | rw [if_neg (by omega), if_neg (by omega), if_pos (by omega)]; congr 1; omega
      | rw [if_neg (by omega), if_pos (by omega)]; congr 1; omega
      | rw [if_pos (by omega)]; congr 1; omega

/-- A channel of a packed colour is that channel (10_state R140). -/
@[simp] theorem ch_packChannels (f : Chan → Byte) (k : Chan) : ch (packChannels f) k = f k := by
  have h := append4_lane (f .w) (f .r) (f .g) (f .b)
  cases k
  · exact h.1
  · exact h.2.1
  · exact h.2.2.1
  · exact h.2.2.2

/-- A colour is its four channels (10_state R140). -/
theorem packChannels_ch (c : Color) : packChannels (ch c) = c := colour_of_lanes c

/-- Two colours with the same channels are equal. -/
theorem colour_ext {c d : Color} (h : ∀ k, ch c k = ch d k) : c = d := by
  rw [← packChannels_ch c, ← packChannels_ch d, funext h]

@[simp] theorem ch_black (k : Chan) : ch black k = 0 := by cases k <;> decide

/-- `gn <= gd` keeps a weighted channel at or below the channel (41_color R432). -/
theorem weighted_le (c : Color) (gn gd : Nat) (k : Chan) (h : gn ≤ gd) (hd : 0 < gd) :
    weighted c gn gd k ≤ (ch c k).toNat := by
  unfold weighted roundHalfUp
  have hm : (ch c k).toNat * gn ≤ (ch c k).toNat * gd := Nat.mul_le_mul_left _ h
  refine Nat.le_of_lt_succ ((Nat.div_lt_iff_lt_mul (by omega)).mpr ?_)
  have e : ((ch c k).toNat + 1) * (2 * gd) = 2 * ((ch c k).toNat * gd) + 2 * gd := by ring
  rw [e]
  omega

/-! ## BeatKeepers -/

/-- Everything a poll can do (40_beatkeeper R402), on numbers. -/
theorem poll_cases (now : Word) (bk : BeatKeeper) :
    (bk.dur = 0 ∧ poll now bk = (0, bk)) ∨
    (bk.dur ≠ 0 ∧ now.toNat < bk.start.toNat ∧ poll now bk = (0, bkReset now bk.dur)) ∨
    (bk.dur ≠ 0 ∧ bk.start.toNat ≤ now.toNat ∧
      (now.toNat - bk.start.toNat) / bk.dur.toNat < bk.cum.toNat ∧ poll now bk = (0, bkReset now bk.dur)) ∨
    (bk.dur ≠ 0 ∧ bk.start.toNat ≤ now.toNat ∧
      bk.cum.toNat ≤ (now.toNat - bk.start.toNat) / bk.dur.toNat ∧
      (poll now bk).1.toNat = (now.toNat - bk.start.toNat) / bk.dur.toNat - bk.cum.toNat ∧
      (poll now bk).2.dur = bk.dur ∧ (poll now bk).2.start = bk.start ∧
      (poll now bk).2.cum.toNat = (now.toNat - bk.start.toNat) / bk.dur.toNat) := by
  by_cases hd : bk.dur = 0
  · exact .inl ⟨hd, by simp [poll, hd]⟩
  by_cases hn : now < bk.start
  · exact .inr (.inl ⟨hd, BitVec.lt_def.mp hn, by rw [poll, if_neg hd, if_pos hn]⟩)
  have hle : bk.start.toNat ≤ now.toNat := by
    rw [BitVec.lt_def] at hn
    omega
  have htot : ((now - bk.start) / bk.dur).toNat = (now.toNat - bk.start.toNat) / bk.dur.toNat := by
    rw [BitVec.toNat_udiv, BitVec.toNat_sub_of_le (BitVec.le_def.mpr hle)]
  by_cases hc : (now - bk.start) / bk.dur < bk.cum
  · refine .inr (.inr (.inl ⟨hd, hle, ?_, by rw [poll, if_neg hd, if_neg hn]; exact if_pos hc⟩))
    rw [BitVec.lt_def, htot] at hc
    exact hc
  · have hc' : bk.cum.toNat ≤ ((now - bk.start) / bk.dur).toNat := by
      rw [BitVec.lt_def] at hc
      omega
    refine .inr (.inr (.inr ⟨hd, hle, htot ▸ hc', ?_, ?_, ?_, ?_⟩))
    · simp only [poll, hd, hn, hc, if_false]
      rw [BitVec.toNat_sub_of_le (BitVec.le_def.mpr hc'), htot]
    all_goals simp only [poll, hd, hn, hc, if_false]
    exact htot

/-- A poll never changes the period. -/
@[simp] theorem polled_dur (now : Word) (bk : BeatKeeper) : (polled now bk).dur = bk.dur := by
  rcases poll_cases now bk with ⟨_, h⟩ | ⟨_, _, h⟩ | ⟨_, _, _, h⟩ | ⟨_, _, _, _, h, _⟩
  · simp [polled, h]
  · simp [polled, h, bkReset]
  · simp [polled, h, bkReset]
  · exact h

/-! ## Active slots -/

/-- Slot `k` after an operation on the first `m` slots. -/
@[simp] theorem getElem_mapFirst {α : Type} {n : Nat} (m : Nat) (f : α → α) (v : Vector α n) (k : Nat) (h : k < n) :
    (mapFirst m f v)[k] = if k < m then f v[k] else v[k] := by
  simp [mapFirst]

/-- An active instance is a slot `k < m`. -/
theorem mem_activeSlots {α : Type} {n : Nat} (m : Nat) (v : Vector α n) (x : α) :
    x ∈ activeSlots m v ↔ ∃ k, ∃ h : k < n, k < m ∧ v[k] = x := by
  unfold activeSlots
  rw [List.mem_iff_getElem]
  constructor
  · rintro ⟨k, hk, rfl⟩
    simp only [List.length_take, Vector.length_toList] at hk
    exact ⟨k, by omega, by omega, by simp⟩
  · rintro ⟨k, hk, hm, rfl⟩
    exact ⟨k, by simp; omega, by simp⟩

/-! ## Draws -/

/-- A draw is in range (10_state R106), whatever the environment has fixed and whatever the free value is. -/
theorem draw_lt (n : Nat) (o : Oracle) (h : 0 < n) : (draw n o).1 < n := by
  unfold draw
  split <;> exact Nat.mod_lt _ h

/-! ## The unit a command names -/

/-- Everything `withGbk` can do (30_encoding R311). -/
theorem withGbk_next (g : Nat) (s t : State) (run : BeatKeeper → Out) (h : withGbk g s run = .next t) :
    (∃ bk, s.gbk[g]? = some bk ∧ run bk = .next t) ∨ (s.gbk[g]? = none ∧ t = s.engineError .unit) := by
  unfold withGbk at h
  split at h
  · rename_i bk e
    exact .inl ⟨bk, e, h⟩
  · rename_i e
    exact .inr ⟨e, (Host.Outcome.next.inj h).symm⟩

/-- Everything `withRange` can do (30_encoding R311). -/
theorem withRange_next (r : Nat) (s t : State) (run : RangeUnit → Out) (h : withRange r s run = .next t) :
    (∃ R, s.ranges[r]? = some R ∧ run R = .next t) ∨ (s.ranges[r]? = none ∧ t = s.engineError .unit) := by
  unfold withRange at h
  split at h
  · rename_i R e
    exact .inl ⟨R, e, h⟩
  · rename_i e
    exact .inr ⟨e, (Host.Outcome.next.inj h).symm⟩

/-- Everything `withConfiguredRange` can do (30_encoding R311). -/
theorem withConfiguredRange_next (r : Nat) (s t : State) (run : RangeUnit → Out)
    (h : withConfiguredRange r s run = .next t) :
    (∃ R, s.ranges[r]? = some R ∧ R.size ≠ 0 ∧ run R = .next t) ∨ t = s.engineError .unit := by
  rcases withRange_next r s t _ h with ⟨R, e, h⟩ | ⟨_, h⟩
  · split at h
    · exact .inr (Host.Outcome.next.inj h).symm
    · rename_i hz
      exact .inl ⟨R, e, hz, h⟩
  · exact .inr h

/-- Everything `withSpc` can do (30_encoding R311). -/
theorem withSpc_next (u : Nat) (s t : State) (run : SpcUnit → Out) (h : withSpc u s run = .next t) :
    (∃ S, s.spc[u]? = some S ∧ run S = .next t) ∨ (s.spc[u]? = none ∧ t = s.engineError .unit) := by
  unfold withSpc at h
  split at h
  · rename_i S e
    exact .inl ⟨S, e, h⟩
  · rename_i e
    exact .inr ⟨e, (Host.Outcome.next.inj h).symm⟩

/-- Everything `withLegal` can do (30_encoding R317). -/
theorem withLegal_next (legal : Bool) (s t : State) (run : Out) (h : withLegal legal s run = .next t) :
    (legal = true ∧ run = .next t) ∨ (legal = false ∧ t = s.engineError .arg) := by
  cases legal
  · exact .inr ⟨rfl, (Host.Outcome.next.inj h).symm⟩
  · exact .inl ⟨rfl, h⟩

/-! ## The strip device beside an Engine turn -/

/-- Everything a turn with reads beside it can do: the turn as it is without them, and what they returned (20_memory R212). -/
theorem engineTurnScanned_next (reads : List PixelRead) (s u : State) (h : engineTurnScanned reads s = .next u) :
    ∃ t, engineTurn s = .next t ∧
      u = { t with scanned := reads.map (readBeside s t), devIdx := (reads.getLast?).elim s.devIdx PixelRead.idx } := by
  unfold engineTurnScanned at h
  split at h
  · rename_i t e
    exact ⟨t, e, (Host.Outcome.next.inj h).symm⟩
  · cases h
  · cases h

/-- A turn that leaves the frame and its length alone shows every read the same pixel. -/
theorem readBeside_of_same (s t : State) (r : PixelRead) (hm : t.mem = s.mem) (hl : t.stripLen = s.stripLen) :
    readBeside s t r = s.portPixel r.idx := by
  simp [readBeside, State.portPixel, State.frame, hm, hl]

/-! ## One step -/

/-- With an empty agenda it is the Engine's turn. -/
theorem step_of_agenda_nil (s : State) (h : s.agenda = []) : step s = engineTurn s := by
  simp [step, turn, h]

/-- Else the first move of the agenda is made. -/
theorem step_of_agenda_cons (s : State) (m : Move) (ms : List Move) (h : s.agenda = m :: ms) :
    step s = applyMove m { s with agenda := ms } := by
  simp [step, turn, h]

end Sys2Proof.Machine
end

