-- ==== Sys2Proof/Laws/Host.lean ====
section
/-! SUPPORT. The host's accesses and the address map: one lemma for each shared operation. -/

namespace Sys2Proof.Machine

open Sys2Proof

/-! ## The error bits (60_exceptions R708, R710) -/

@[simp] theorem ErrCode.bit_opc : ErrCode.opc.bit = 0b000001#6 := by decide
@[simp] theorem ErrCode.bit_rsv : ErrCode.rsv.bit = 0b000010#6 := by decide
@[simp] theorem ErrCode.bit_unit : ErrCode.unit.bit = 0b000100#6 := by decide
@[simp] theorem ErrCode.bit_arg : ErrCode.arg.bit = 0b001000#6 := by decide
@[simp] theorem ErrCode.bit_busy : ErrCode.busy.bit = 0b010000#6 := by decide
@[simp] theorem ErrCode.bit_acc : ErrCode.acc.bit = 0b100000#6 := by decide

/-! ## The address map (20_memory R202) -/

/-- The four argument registers. -/
@[simp] theorem regOf_arg (k : Fin 4) : regOf (0x014 + 4 * k.val) = .arg k := by
  revert k
  decide

/-- Word `w` of the readback block of GBK channel `g` (10_state R146). -/
theorem regOf_gbk (g w : Nat) (hg : g < 8) (hw : w < 4) : regOf (0x040 + 16 * g + 4 * w) = .gbk g w := by
  have h : ∀ g : Fin 8, ∀ w : Fin 4, regOf (0x040 + 16 * g.val + 4 * w.val) = .gbk g.val w.val := by decide
  exact h ⟨g, hg⟩ ⟨w, hw⟩

/-- Word `w` of the readback block of range `r` (10_state R156). -/
theorem regOf_range (r w : Nat) (hr : r < 8) (hw : w < 16) : regOf (0x100 + 64 * r + 4 * w) = .range r w := by
  have h : ∀ r : Fin 8, ∀ w : Fin 16, regOf (0x100 + 64 * r.val + 4 * w.val) = .range r.val w.val := by decide
  exact h ⟨r, hr⟩ ⟨w, hw⟩

/-- Word `w` of the readback block of SPC unit `u` (10_state R166). -/
theorem regOf_spc (u w : Nat) (hu : u < 8) (hw : w < 8) : regOf (0x300 + 32 * u + 4 * w) = .spc u w := by
  have h : ∀ u : Fin 8, ∀ w : Fin 8, regOf (0x300 + 32 * u.val + 4 * w.val) = .spc u.val w.val := by decide
  exact h ⟨u, hu⟩ ⟨w, hw⟩

/-- The view of pixel `i` (20_memory R210). -/
theorem regOf_frame (i : Nat) (hi : i < 65536) : regOf (0x10000 + 4 * i) = .frame i := by
  unfold regOf
  split <;> try omega
  unfold regOfBlock Config.frameBase Config.apertureSize
  rw [if_neg (by omega), if_neg (by omega), if_neg (by omega), if_pos (by omega)]
  congr 1
  omega

/-- Above the global registers stand the blocks (20_memory R202). -/
theorem regOf_of_block (off : Nat) (h : 0x040 ≤ off) : regOf off = regOfBlock off := by
  unfold regOf
  split <;> first | rfl | omega

/-- The two unmapped windows below the frame view (20_memory R202, R203). -/
theorem regOf_unmapped (off : Nat) (h : (0x0C0 ≤ off ∧ off < 0x100) ∨ (0x400 ≤ off ∧ off < 0x10000)) :
    regOf off = .unmapped := by
  rw [regOf_of_block off (by omega)]
  unfold regOfBlock Config.frameBase Config.apertureSize
  rw [if_neg (by omega), if_neg (by omega), if_neg (by omega), if_neg (by omega)]

/-- Above `ARG3` a write has no register to change (45_system R610). -/
theorem writeReg_of_high (off : Nat) (v : Word) (s : State) (h : 0x020 < off) : writeReg v s (regOf off) = s := by
  unfold regOf
  split <;> first | rfl | omega | skip
  unfold regOfBlock
  (repeat' split) <;> rfl

/-! ## The two accesses -/

/-- A host write in the aperture is ignored, performed or recorded as `Error(ACC)` (20_memory R205, 70_reset R800). -/
theorem hostWrite_eq (off : Nat) (size : AccSize) (v : Word) (s : State) (h : off < 0x50000) :
    hostWrite off size v s = .next
      (if s.rstN = false then s
       else if size = .b4 ∧ off % 4 = 0 then writeReg v s (regOf off)
       else s.recordError .acc (BitVec.ofNat 32 off)) := by
  unfold hostWrite
  rw [if_neg (Nat.not_le.mpr h)]
  cases hr : s.rstN
  · simp
  · by_cases hw : size = .b4 ∧ off % 4 = 0
    · have : wellFormedAccess off size = true := by simp [wellFormedAccess, hw.1, hw.2]
      rw [this, if_pos hw]
      rfl
    · have : wellFormedAccess off size = false := by
        rw [not_and_or] at hw
        rcases hw with hw | hw <;> simp [wellFormedAccess, hw]
      rw [this, if_neg hw]
      rfl

/-- A host read in the aperture returns 0 under reset, the register, or 0 with `Error(ACC)` (20_memory R205,
70_reset R800). -/
theorem hostRead_eq (off : Nat) (size : AccSize) (s : State) (h : off < 0x50000) :
    hostRead off size s = .next
      (if s.rstN = false then { s with rdata := 0 }
       else if size = .b4 ∧ off % 4 = 0 then readReg s (regOf off)
       else { s.recordError .acc (BitVec.ofNat 32 off) with rdata := 0 }) := by
  unfold hostRead
  rw [if_neg (Nat.not_le.mpr h)]
  cases hr : s.rstN
  · simp
  · by_cases hw : size = .b4 ∧ off % 4 = 0
    · have : wellFormedAccess off size = true := by simp [wellFormedAccess, hw.1, hw.2]
      rw [this, if_pos hw]
      rfl
    · have : wellFormedAccess off size = false := by
        rw [not_and_or] at hw
        rcases hw with hw | hw <;> simp [wellFormedAccess, hw]
      rw [this, if_neg hw]
      rfl

/-- Everything a register read changes: the read data and the model's count of free reads (20_memory R207, R208). -/
theorem readReg_eq (s : State) (reg : Reg) :
    ∃ (d : Word) (n : Nat), readReg s reg = { s with rdata := d, freeReads := n } := by
  unfold readReg
  split
  · exact ⟨_, _, rfl⟩
  · exact ⟨_, s.freeReads, rfl⟩

/-- When the Engine is idle a read returns the register's value (45_system R611). -/
theorem readReg_of_idle (s : State) (reg : Reg) (h : s.phase = .idle) :
    readReg s reg = { s with rdata := regValue s reg } := by
  simp [readReg, State.busy, h]

/-- Everything a register write can do to the rest of the machine: only `CTRL`, `STATUS`, `CMD` and `ARGk` are written
(45_system R610). -/
theorem writeReg_keeps (v : Word) (s : State) (reg : Reg) :
    (writeReg v s reg).gbk = s.gbk ∧ (writeReg v s reg).ranges = s.ranges ∧ (writeReg v s reg).spc = s.spc ∧
      (writeReg v s reg).mem = s.mem ∧ (writeReg v s reg).showReq = s.showReq ∧
      (writeReg v s reg).stripLen = s.stripLen ∧ (s.phase ≠ .idle → (writeReg v s reg).latch = s.latch ∧
        (writeReg v s reg).phase = s.phase) := by
  cases reg <;> simp only [writeReg, and_self, implies_true]
  · unfold writeCtrl
    split <;> simp [State.recordError]
  · simp [State.clearErrors]
  · unfold writeCmd State.busy
    split
    · simp [State.recordError]
    · rename_i h
      have h : s.phase = .idle := by simpa using h
      simp [State.acceptCommand, h]
  · unfold writeArg
    split <;> simp

end Sys2Proof.Machine
end

