-- ==== Sys2Proof/Laws/Invariant.lean ====
section
/-! SUPPORT. What each shared operation keeps of the invariant of `Sys2Proof.Safety`. -/

namespace Sys2Proof.Machine

open Sys2Proof

/-! ## Units -/

theorem half_pos {x : Half} (h : x ≠ 0) : 0 < x.toNat := by
  rcases Nat.eq_zero_or_pos x.toNat with h' | h'
  · exact absurd (BitVec.eq_of_toNat_eq (by simpa using h')) h
  · exact h'

/-- An advanced head is in the range (43_range_update R505). -/
theorem snakeAdvance_lt (b N : Nat) (sn : Snake) (hN : 0 < N) (h2 : N < 2 ^ 16) :
    (snakeAdvance b N sn).head.toNat < N := by
  have h (x : Nat) : (BitVec.ofNat 16 (x % N)).toNat < N := by
    have hx := Nat.mod_lt x hN
    rw [BitVec.toNat_ofNat, Nat.mod_eq_of_lt (Nat.lt_trans hx h2)]
    exact hx
  unfold snakeAdvance
  split
  · exact h _
  · exact h _

/-- Drawn indices are range indices (43_range_update R512, 10_state R106). -/
theorem drawInto_lt (K N : Nat) (hN : 0 < N) (h2 : N < 2 ^ 16) (m base : Nat) (hist : Vector Half Config.randHist)
    (o : Oracle) (h : ∀ j : Fin Config.randHist, hist[j].toNat < N) (j : Fin Config.randHist) :
    (drawInto K N m base hist o).1[j].toNat < N := by
  induction m generalizing base hist o with
  | zero => exact h j
  | succ m ih =>
    apply ih
    intro j
    simp only [Fin.getElem_fin, Vector.getElem_setIfInBounds]
    split
    · have hd := draw_lt N o hN
      rw [BitVec.toNat_ofNat, Nat.mod_eq_of_lt (Nat.lt_trans hd h2)]
      exact hd
    · exact h j

/-- A Random advance keeps the bounds of 10_state R154. -/
theorem rndOk_randomAdvance (b N : Nat) (x : Rnd) (o : Oracle) (hN : 0 < N) (h2 : N < 2 ^ 16) (h : RndOk N x) :
    RndOk N (randomAdvance b N x o).1 := by
  unfold randomAdvance
  split
  · exact h
  · rename_i hk
    obtain ⟨_, _, hcur, hhist⟩ := h
    refine ⟨Nat.min_le_right _ _, .inl (Nat.mod_lt _ (Nat.pos_of_ne_zero hk)), ?_, drawInto_lt _ _ hN h2 _ _ _ _ hhist⟩
    intro hlt
    have hlt : min (x.len.val + b) x.count.val < x.count.val := hlt
    show (x.cur.val + b) % x.count.val = min (x.len.val + b) x.count.val
    rw [hcur (by omega), Nat.mod_eq_of_lt (by omega)]
    omega

/-- A new Snake's head is in the range (42_range_setup R470). -/
theorem rangeOk_addSnake {L : Nat} {R : RangeUnit} (now : Word) (a : Args) (dir : Dir) (h : RangeOk L R)
    (hz : R.size ≠ 0) : RangeOk L (addSnake (newSnake now a dir R.size) R) := by
  unfold addSnake
  split
  · refine ⟨h.1, ?_, h.2.2⟩
    intro k hk
    simp only [Fin.getElem_fin, Vector.getElem_set]
    split
    · have hm := Nat.mod_lt (lowHalf a.a1).toNat (half_pos hz)
      show (BitVec.ofNat 16 _).toNat < _
      rw [BitVec.toNat_ofNat, Nat.mod_eq_of_lt (Nat.lt_trans hm R.size.isLt)]
      exact hm
    · have hk : k.val < R.nsnake.val + 1 := hk
      exact h.2.1 k (by omega)
  · exact h

theorem rangeOk_addPulse {L : Nat} {R : RangeUnit} (p : Pulse) (h : RangeOk L R) : RangeOk L (addPulse p R) := by
  unfold addPulse
  split
  · exact h
  · exact h

/-- A new Random instance is in its bounds (42_range_setup R480). -/
theorem rangeOk_addRandom {L : Nat} {R : RangeUnit} (now : Word) (a : Args) (count : Nat) (h : RangeOk L R)
    (hz : R.size ≠ 0) : RangeOk L (addRandom (newRnd now a count) R) := by
  unfold addRandom
  split
  · exact h
  · refine ⟨h.1, h.2.1, fun _ => ⟨Nat.zero_le _, .inr rfl, fun _ => rfl, fun j => ?_⟩⟩
    simpa [newRnd] using half_pos hz

/-- A range with no effect needs only its interval. -/
theorem rangeOk_dropEffects {L : Nat} {R : RangeUnit} (h : R.size = 0 ∨ R.offset.toNat + R.size.toNat ≤ L) :
    RangeOk L (dropEffects R) :=
  ⟨h, fun _ hk => absurd hk (Nat.not_lt_zero _), fun hk => nomatch hk⟩

theorem rangeOk_pollRange {L : Nat} {R : RangeUnit} (now : Word) (h : RangeOk L R) : RangeOk L (pollRange now R) := by
  refine ⟨h.1, ?_, ?_⟩
  · intro k hk
    have hk : k.val < R.nsnake.val := hk
    simp only [pollRange, Fin.getElem_fin, getElem_mapFirst, hk, if_true]
    exact h.2.1 k hk
  · intro ha
    have ha : R.rndAct = true := ha
    simp only [pollRange, ha, if_true]
    exact h.2.2 ha

theorem rangeOk_advanceRange {L : Nat} {R : RangeUnit} (now : Word) (o : Oracle) (h : RangeOk L R) (hz : R.size ≠ 0) :
    RangeOk L (advanceRange now R o).1 := by
  refine ⟨h.1, ?_, ?_⟩
  · intro k hk
    have hk : k.val < R.nsnake.val := hk
    simp only [advanceRange, Fin.getElem_fin, getElem_mapFirst, hk, if_true]
    exact snakeAdvance_lt _ _ _ (half_pos hz) R.size.isLt
  · intro ha
    have ha : R.rndAct = true := ha
    simp only [advanceRange, ha, if_true]
    exact rndOk_randomAdvance _ _ _ _ (half_pos hz) R.size.isLt (h.2.2 ha)

theorem spcOk_addPattern {S : SpcUnit} (p : Pattern) (h : SpcOk S) (hp : PatternOk p) : SpcOk (addPattern p S) := by
  unfold addPattern
  split
  · intro k hk
    simp only [Fin.getElem_fin, Vector.getElem_set]
    split
    · exact hp
    · have hk : k.val < S.npat.val + 1 := hk
      exact h k (by omega)
  · exact h

theorem patternOk_patPolled (now : Word) (p : Pattern) (h : PatternOk p) : PatternOk (patPolled now p) := by
  obtain ⟨h1, h2, h3, h4⟩ := h
  unfold patPolled
  rcases hk : p.kind <;> simp only [PatternOk, hk, polled_dur]
  · exact absurd hk h1
  · exact ⟨by simp, fun _ => h2 hk, by simp, by simp⟩
  · exact ⟨by simp, by simp, fun _ => h3 hk, by simp⟩
  · exact ⟨by simp, by simp, by simp, fun _ => h4 hk⟩

theorem patternOk_patAdvance (b : Nat) (p : Pattern) (h : PatternOk p) : PatternOk (patAdvance b p) := by
  obtain ⟨h1, h2, h3, h4⟩ := h
  unfold patAdvance
  rcases hk : p.kind <;> simp only [PatternOk, hk]
  · exact absurd hk h1
  · exact ⟨by simp, fun _ => h2 hk, by simp, by simp⟩
  · refine ⟨by simp, by simp, fun _ => ?_, by simp⟩
    rw [BitVec.toNat_ofNat]
    omega
  · obtain ⟨hh, _, hd⟩ := h4 hk
    refine ⟨by simp, by simp, by simp, fun _ => ⟨hh, ?_, hd⟩⟩
    have hlt := p.half.isLt
    have hm := Nat.mod_lt (p.phase.toNat + b) (show 0 < 2 * p.half.toNat by omega)
    rw [BitVec.toNat_ofNat, Nat.mod_eq_of_lt (by omega)]
    exact hm

/-! ## Updates of the state -/

/-- No request is up while the Engine does not wait (70_reset R811). -/
theorem no_request {s : State} (hi : Inv s) (hp : s.phase = .exec ∨ s.phase = .idle) :
    s.showReq = false ∧ ∀ u, ∀ h : u < s.spc.length, s.spc[u].showReq = false := by
  obtain ⟨h1, h2⟩ := hi.handshake
  constructor
  · rcases hp with h | h <;> simpa [h] using h1
  · intro u hu
    have h3 := h2 u hu
    rcases hp with h | h <;> simpa [h] using h3

/-- An update of fields the invariant does not read keeps it. -/
theorem inv_of_same {s t : State} (hi : Inv s) (hr : t.rstN = true) (h1 : t.params = s.params) (h2 : t.ranges = s.ranges)
    (h3 : t.spc = s.spc) (h4 : t.mem = s.mem) (h5 : t.showReq = s.showReq) (h6 : t.phase = s.phase)
    (h7 : ErrorsOk t) : Inv t := by
  have hl : t.stripLen = s.stripLen := congrArg Config.Params.stripLen h1
  refine ⟨h1 ▸ hi.params, by rw [h2, hl]; exact hi.ranges, by rw [h3]; exact hi.spc, by rw [h4, hl]; exact hi.frame,
    ?_, ?_, h7, by simp [hr]⟩
  · unfold HandshakeOk
    rw [h5, h6]
    simp only [h3]
    exact hi.handshake
  · have e : phaseOk t = phaseOk s := by
      unfold phaseOk State.numSpc
      rw [h6, h3]
    rw [e]
    exact hi.phase

theorem inv_recordError {s : State} (e : ErrCode) (info : Word) (hi : Inv s) (hr : s.rstN = true) :
    Inv (s.recordError e info) :=
  inv_of_same hi hr rfl rfl rfl rfl rfl rfl (by cases e <;> simp [State.recordError, ErrCode.num, ErrorsOk])

theorem inv_finish {s : State} (hi : Inv s) (hp : s.phase = .exec) (hr : s.rstN = true) : Inv s.finish := by
  obtain ⟨q1, q2⟩ := no_request hi (.inl hp)
  refine ⟨hi.params, hi.ranges, hi.spc, hi.frame, ⟨by simp [State.finish, q1], ?_⟩, rfl, hi.errors,
    by simp [State.finish, hr]⟩
  intro u hu
  have hu : u < s.spc.length := hu
  show s.spc[u].showReq = true ↔ Phase.idle = .waitSpc u
  simp [q2 u hu]

theorem inv_setGbk {s : State} (g : Nat) (bk : BeatKeeper) (hi : Inv s) (hr : s.rstN = true) : Inv (s.setGbk g bk) :=
  inv_of_same hi hr (by simp [State.setGbk, State.params, State.numRanges, State.numSpc, State.numGbk])
    rfl rfl rfl rfl rfl hi.errors

theorem inv_setRange {s : State} (r : Nat) (R : RangeUnit) (hi : Inv s) (hr : s.rstN = true)
    (h : RangeOk s.stripLen R) : Inv (s.setRange r R) := by
  refine ⟨?_, ?_, hi.spc, hi.frame, hi.handshake, hi.phase, hi.errors, by simp [State.setRange, hr]⟩
  · simpa [State.setRange, State.params, State.numRanges, State.numSpc, State.numGbk] using hi.params
  · intro R' hR
    rcases List.mem_or_eq_of_mem_set hR with h' | rfl
    · exact hi.ranges R' h'
    · exact h

theorem inv_setSpc {s : State} (u : Nat) (S S' : SpcUnit) (hi : Inv s) (hr : s.rstN = true) (hS : s.spc[u]? = some S)
    (h : SpcOk S') (hq : S'.showReq = S.showReq) : Inv (s.setSpc u S') := by
  refine ⟨?_, hi.ranges, ?_, hi.frame, ⟨hi.handshake.1, ?_⟩, ?_, hi.errors, by simp [State.setSpc, hr]⟩
  · simpa [State.setSpc, State.params, State.numRanges, State.numSpc, State.numGbk] using hi.params
  · intro R hR
    rcases List.mem_or_eq_of_mem_set hR with h' | rfl
    · exact hi.spc R h'
    · exact h
  · intro v hv
    have hv' : v < s.spc.length := by simpa [State.setSpc] using hv
    have h2 := hi.handshake.2 v hv'
    simp only [State.setSpc, List.getElem_set]
    split
    · rename_i e
      subst e
      rw [hq, ← (List.getElem?_eq_some_iff.mp hS).2]
      exact h2
    · exact h2
  · have h2 := hi.phase
    unfold phaseOk at *
    simp only [State.setSpc, State.numSpc, List.length_set] at *
    exact h2

theorem inv_writeFrame {s : State} (i : Nat) (cs : List Color) (hi : Inv s) (hr : s.rstN = true)
    (h : i + cs.length ≤ s.stripLen) : Inv (s.writeFrame i cs) :=
  ⟨hi.params, hi.ranges, hi.spc, frameOk_writePixels _ _ _ _ hi.frame h, hi.handshake, hi.phase, hi.errors,
    by simp [State.writeFrame, hr]⟩

theorem inv_emitShow {s : State} (hi : Inv s) (hp : s.phase = .exec) (hr : s.rstN = true) : Inv s.emitShow := by
  obtain ⟨_, q2⟩ := no_request hi (.inl hp)
  refine ⟨hi.params, hi.ranges, hi.spc, hi.frame, ⟨by simp [State.emitShow], ?_⟩, rfl, hi.errors,
    by simp [State.emitShow, hr]⟩
  intro u hu
  have hu : u < s.spc.length := hu
  show s.spc[u].showReq = true ↔ Phase.waitShow = .waitSpc u
  simp [q2 u hu]

theorem inv_emitSpcShow {s : State} (u : Nat) (S S' : SpcUnit) (hi : Inv s) (hp : s.phase = .exec) (hr : s.rstN = true)
    (hS : s.spc[u]? = some S) (h : SpcOk S') : Inv (s.emitSpcShow u S') := by
  obtain ⟨q1, q2⟩ := no_request hi (.inl hp)
  have hu := (List.getElem?_eq_some_iff.mp hS).1
  refine ⟨?_, hi.ranges, ?_, hi.frame, ⟨by simp [State.emitSpcShow, q1], ?_⟩, ?_, hi.errors,
    by simp [State.emitSpcShow, hr]⟩
  · simpa [State.emitSpcShow, State.params, State.numRanges, State.numSpc, State.numGbk] using hi.params
  · intro R hR
    rcases List.mem_or_eq_of_mem_set hR with h' | rfl
    · exact hi.spc R h'
    · exact h
  · intro v hv
    have hv' : v < s.spc.length := by simpa [State.emitSpcShow] using hv
    simp only [State.emitSpcShow, List.getElem_set]
    split
    · rename_i e
      simp [e]
    · rename_i e
      simp [e, q2 v hv']
  · simp [phaseOk, State.emitSpcShow, State.numSpc, hu]

theorem inv_acceptCommand {s : State} (word : Word) (hi : Inv s) (hp : s.phase = .idle) (hr : s.rstN = true) :
    Inv (s.acceptCommand word) := by
  obtain ⟨q1, q2⟩ := no_request hi (.inr hp)
  refine ⟨hi.params, hi.ranges, hi.spc, hi.frame, ⟨by simp [State.acceptCommand, q1], ?_⟩, rfl, hi.errors,
    by simp [State.acceptCommand, hr]⟩
  intro u hu
  have hu : u < s.spc.length := hu
  show s.spc[u].showReq = true ↔ Phase.exec = .waitSpc u
  simp [q2 u hu]

/-- What the strip device reads keeps the invariant, under reset too. -/
theorem inv_scanned {s : State} (cs : List Color) (i : Half) (hi : Inv s) : Inv { s with scanned := cs, devIdx := i } := by
  refine ⟨hi.params, hi.ranges, hi.spc, hi.frame, hi.handshake, hi.phase, hi.errors, fun hr => ?_⟩
  calc { s with scanned := cs, devIdx := i } = { s.heldInReset with scanned := cs, devIdx := i } := by rw [← hi.held hr]
    _ = _ := rfl

/-- The reset state keeps the parameters. -/
theorem params_heldInReset (s : State) : s.heldInReset.params = s.params := by
  simp only [State.params, State.heldInReset, State.resetWith, State.numRanges, State.numSpc, State.numGbk,
    List.length_map, List.length_replicate]
  congr 1
  unfold resetRanges
  split <;> simp_all

end Sys2Proof.Machine
end

