-- ==== Sys2Proof/Laws/PerInstr.lean ====
section
/-! SUPPORT. The statements made per instruction: one family, one lemma per constructor of `Instr`. -/

namespace Sys2Proof.Laws.EncodedFields

open Sys2Proof

/-- The three fields of the encoded word of a well-formed command are its opcode, its unit and its operand
(30_encoding R301, R310). -/
def Statement (i : Instr) : Prop :=
  i.wellFormed = true →
    opcField (encode i) = i.opc ∧ unitField (encode i) = i.unitNum ∧ opndField (encode i) = i.opnd

/-- The fields of a word built as `(OPC << 24) | (UNIT << 20) | OPND` (30_encoding R310). -/
theorem fields_of_sum (c u d : Nat) (hc : c < 256) (hu : u < 16) (hd : d < 2 ^ 20) :
    opcField (BitVec.ofNat 32 (c * 2 ^ 24 + u * 2 ^ 20 + d)) = c ∧
      unitField (BitVec.ofNat 32 (c * 2 ^ 24 + u * 2 ^ 20 + d)) = u ∧
      opndField (BitVec.ofNat 32 (c * 2 ^ 24 + u * 2 ^ 20 + d)) = d := by
  simp only [opcField, unitField, opndField, field, BitVec.toNat_ofNat]
  omega

theorem nop : Statement .nop := fun _ => by decide

theorem bkReset (unit : Nat) : Statement (.bkReset unit) := fun h =>
  fields_of_sum 0x01 unit 0 (by decide) (by simpa [Instr.wellFormed] using h) (by decide)

theorem bkPoll (unit : Nat) : Statement (.bkPoll unit) := fun h =>
  fields_of_sum 0x02 unit 0 (by decide) (by simpa [Instr.wellFormed] using h) (by decide)

theorem blend : Statement .blend := fun _ => by decide

theorem rangeCfg (unit : Nat) : Statement (.rangeCfg unit) := fun h =>
  fields_of_sum 0x10 unit 0 (by decide) (by simpa [Instr.wellFormed] using h) (by decide)

theorem rangeClear (unit : Nat) : Statement (.rangeClear unit) := fun h =>
  fields_of_sum 0x11 unit 0 (by decide) (by simpa [Instr.wellFormed] using h) (by decide)

theorem rangeAddSnake (unit : Nat) (dir : Dir) : Statement (.rangeAddSnake unit dir) := fun h =>
  fields_of_sum 0x12 unit (bitOfDir dir) (by decide) (by simpa [Instr.wellFormed] using h) (by cases dir <;> decide)

theorem rangeAddPulse (unit : Nat) : Statement (.rangeAddPulse unit) := fun h =>
  fields_of_sum 0x13 unit 0 (by decide) (by simpa [Instr.wellFormed] using h) (by decide)

theorem rangeAddRandom (unit count : Nat) : Statement (.rangeAddRandom unit count) := fun h => by
  simp only [Instr.wellFormed, Bool.and_eq_true, decide_eq_true_eq] at h
  exact fields_of_sum 0x14 unit count (by decide) h.1 (by omega)

theorem rangeUpdate (unit : Nat) : Statement (.rangeUpdate unit) := fun h =>
  fields_of_sum 0x15 unit 0 (by decide) (by simpa [Instr.wellFormed] using h) (by decide)

theorem spcClear (unit : Nat) : Statement (.spcClear unit) := fun h =>
  fields_of_sum 0x20 unit 0 (by decide) (by simpa [Instr.wellFormed] using h) (by decide)

theorem spcAddSolid (unit : Nat) : Statement (.spcAddSolid unit) := fun h =>
  fields_of_sum 0x21 unit 0 (by decide) (by simpa [Instr.wellFormed] using h) (by decide)

theorem spcAddBlink (unit : Nat) : Statement (.spcAddBlink unit) := fun h =>
  fields_of_sum 0x22 unit 0 (by decide) (by simpa [Instr.wellFormed] using h) (by decide)

theorem spcAddPwave (unit half : Nat) : Statement (.spcAddPwave unit half) := fun h => by
  simp only [Instr.wellFormed, Bool.and_eq_true, decide_eq_true_eq] at h
  exact fields_of_sum 0x23 unit half (by decide) h.1 (by omega)

theorem spcUpdate (unit : Nat) : Statement (.spcUpdate unit) := fun h =>
  fields_of_sum 0x24 unit 0 (by decide) (by simpa [Instr.wellFormed] using h) (by decide)

end Sys2Proof.Laws.EncodedFields
end

