-- ==== Sys2Proof/Tests/Slice0.lean ====
section
/-! SUPPORT. Tests with the expected values of 95_test_vectors, and a witness for the hypotheses of every statement. -/

namespace Sys2Proof.Tests

open Sys2Proof Sys2Proof.Machine

/-! ## Ill-formed commands are refused, one check at a time (30_encoding R301, R305, R306) -/

/-- A unit number above 15 fits no word. -/
theorem test_wellFormed_refuses_unit_16 :
    [Instr.bkReset 16, .bkPoll 16, .rangeCfg 16, .rangeClear 16, .rangeAddSnake 16 .cw, .rangeAddPulse 16,
      .rangeAddRandom 16 0, .rangeUpdate 16, .spcClear 16, .spcAddSolid 16, .spcAddBlink 16, .spcAddPwave 16 1,
      .spcUpdate 16].all (fun i => !i.wellFormed) = true := by decide

/-- A count above 15 fits no word. -/
theorem test_wellFormed_refuses_count_16 : (Instr.rangeAddRandom 0 16).wellFormed = false := by decide

/-- A half period above 2047 fits no word. -/
theorem test_wellFormed_refuses_half_2048 : (Instr.spcAddPwave 0 2048).wellFormed = false := by decide

/-- The largest operands fit. -/
theorem test_wellFormed_accepts_largest :
    (Instr.rangeAddRandom 15 15).wellFormed = true ∧ (Instr.spcAddPwave 15 2047).wellFormed = true := by decide

/-! ## Decoding, on words laid out field by field from 30_encoding R301-R306 and R310 -/

theorem test_decode_format_Z :
    decode (0x00#8 ++ 0#4 ++ 0#20) = .command .nop ∧ decode (0x03#8 ++ 0#4 ++ 0#20) = .command .blend := by decide

theorem test_decode_beat :
    decode (0x01#8 ++ 9#4 ++ 0#20) = .command (.bkReset 9) ∧
      decode (0x02#8 ++ 7#4 ++ 0#20) = .command (.bkPoll 7) := by decide

theorem test_decode_range_setup :
    decode (0x10#8 ++ 1#4 ++ 0#20) = .command (.rangeCfg 1) ∧
      decode (0x11#8 ++ 6#4 ++ 0#20) = .command (.rangeClear 6) ∧
      decode (0x13#8 ++ 15#4 ++ 0#20) = .command (.rangeAddPulse 15) := by decide

theorem test_decode_format_S :
    decode (0x12#8 ++ 2#4 ++ 0#19 ++ 0#1) = .command (.rangeAddSnake 2 .cw) ∧
      decode (0x12#8 ++ 2#4 ++ 0#19 ++ 1#1) = .command (.rangeAddSnake 2 .ccw) := by decide

theorem test_decode_format_R : decode (0x14#8 ++ 3#4 ++ 0#16 ++ 13#4) = .command (.rangeAddRandom 3 13) := by decide

theorem test_decode_range_update : decode (0x15#8 ++ 1#4 ++ 0#20) = .command (.rangeUpdate 1) := by decide

theorem test_decode_spc :
    decode (0x20#8 ++ 4#4 ++ 0#20) = .command (.spcClear 4) ∧
      decode (0x21#8 ++ 5#4 ++ 0#20) = .command (.spcAddSolid 5) ∧
      decode (0x22#8 ++ 6#4 ++ 0#20) = .command (.spcAddBlink 6) ∧
      decode (0x24#8 ++ 7#4 ++ 0#20) = .command (.spcUpdate 7) := by decide

theorem test_decode_format_W : decode (0x23#8 ++ 2#4 ++ 0#9 ++ 1027#11) = .command (.spcAddPwave 2 1027) := by decide

/-- V-ERR-1, V-ERR-2 and the edges of 30_encoding R315. -/
theorem test_decode_undefined :
    ([0x04000000, 0x05000000, 0x0F000000, 0x16000000, 0x1F000000, 0x25000000, 0xFFFFFFFF] : List Word).all
      (fun w => decode w = .undefinedOpcode) = true := by decide

/-- V-SYS-2, V-SYS-3, V-BK-11, V-BL-11, V-CFG-6, V-SNK-4, V-SPC-10, and COUNT's neighbour bit (R305). -/
theorem test_decode_reserved :
    ([0x00000001, 0x00100000, 0x02000001, 0x03100000, 0x10000001, 0x12000002, 0x23000800, 0x14000010] : List Word).all
      (fun w => decode w = .reservedBits) = true := by decide

/-- The words of 30_encoding R320. -/
theorem test_encode :
    encode (.rangeUpdate 1) = 0x15100000 ∧ encode (.rangeAddSnake 0 .ccw) = 0x12000001 ∧
      encode (.spcAddPwave 3 0x7FF) = 0x233007FF := by decide

/-! ## One step of the Engine -/

/-- A state whose next step is the EXEC step of this word (10_state R112, R113). -/
def latched (word : Word) (a : Args) (now : Word) (s : State) : State :=
  { s with latch := { word := word, a := a, mode := .off }, phase := .exec, nowMs := now }

/-- What one step shows; nothing where it stops. -/
def see {α : Type} (f : State → α) (s : State) : Option α :=
  match step s with
  | .next t => some (f t)
  | .fault _ => none
  | .refused _ => none

/-- The error record: the bits, the code and the information. -/
def errors (t : State) : BitVec 6 × BitVec 4 × Word := (t.errs, t.errCode, t.errInfo)

/-- The state after reset with these units in place of range 0. -/
def withRange0 (R : RangeUnit) : State := { State.reset with ranges := [R, .empty 0 0] }

/-- The state after reset with this SPC unit 0. -/
def withSpc0 (S : SpcUnit) : State := { State.reset with spc := [S] }

/-- The state after reset with this GBK channel 0. -/
def withGbk0 (bk : BeatKeeper) : State := { State.reset with gbk := [bk, .zero] }

/-- The frame as a list of its ten pixels. -/
def pixels (t : State) : List Color := (List.range 10).map t.frame

/-- V-SYS-1. -/
theorem test_nop : see id (latched 0x00000000 .zero 5 .reset) = some { latched 0x00000000 .zero 5 .reset with phase := .idle } := by
  decide

/-- 40_beatkeeper R410, example. -/
theorem test_bk_reset : see (·.gbk) (latched 0x01000000 ⟨0, 0, 0, 100⟩ 1000 .reset) = some [⟨100, 1000, 0⟩, ⟨0, 0, 0⟩] := by
  decide

/-- V-BK-10. -/
theorem test_bk_poll_absent : see errors (latched 0x02200000 .zero 0 .reset) = some (0b000100, 3, 0x02200000) := by decide

/-- V-BK-2, V-BK-5, V-BK-7 and V-BK-8. -/
theorem test_bk_poll :
    (let poll := fun bk now => see (fun t => (t.result, t.gbk[0]?)) (latched 0x02000000 .zero now (withGbk0 bk))
     poll ⟨100, 1000, 0⟩ 1300 = some (3, some ⟨100, 1000, 3⟩) ∧ poll ⟨100, 1000, 4⟩ 5 = some (0, some ⟨100, 5, 0⟩) ∧
       poll ⟨100, 0, 5⟩ 250 = some (0, some ⟨100, 250, 0⟩) ∧
       poll ⟨1, 0, 0⟩ 0xFFFFFFFF = some (0xFFFFFFFF, some ⟨1, 0, 0xFFFFFFFF⟩)) := by
  dsimp only
  decide

/-- V-BL-3, V-BL-6, V-BL-7, V-BL-8 and V-BL-9. -/
theorem test_blend :
    (let run := fun d s g => see (·.result) (latched 0x03000000 ⟨d, s, g, 0⟩ 0 .reset)
     run 0 0x01030507 0x8000 = some 0x01020304 ∧ run 0x10203040 0xFFFFFFFF 0x10000 = some 0x0F1F2F3F ∧
       run 0 0x00FF0000 0xC000 = some 0x00BF0000 ∧ run 0 0xFF 0x0080 = some 0 ∧ run 0 0xFF 0x0081 = some 1) := by
  dsimp only
  decide

/-- V-BL-10. -/
theorem test_blend_gamma_above_one :
    see (fun t => (errors t, t.result)) (latched 0x03000000 ⟨1, 2, 0x10001, 0⟩ 0 .reset) =
      some ((0b001000, 4, 0x03000000), 0) := by decide

/-- V-SC-3 and V-SC-4. -/
theorem test_scale : scale 0x00FF0000 3 4 = 0x00BF0000 ∧ scale 0x80402010 1 3 = 0x2B150B05 := by decide

/-- V-CFG-1. -/
theorem test_range_cfg :
    see (fun t => (t.ranges[1]?).map fun R => (R.offset, R.size)) (latched 0x10100000 ⟨0x00040006, 0, 0, 0⟩ 0 .reset) =
      some (some (6, 4)) := by decide

/-- V-CFG-2, V-CFG-3 and V-CFG-5. -/
theorem test_range_cfg_errors :
    see errors (latched 0x10100000 ⟨0x00000003, 0, 0, 0⟩ 0 .reset) = some (0b001000, 4, 0x10100000) ∧
      see errors (latched 0x10100000 ⟨0x000A0001, 0, 0, 0⟩ 0 .reset) = some (0b001000, 4, 0x10100000) ∧
      see errors (latched 0x10200000 .zero 0 .reset) = some (0b000100, 3, 0x10200000) := by decide

/-- A range with two Snakes, and pixel 9 of the frame lit. -/
def twoSnakes (offset size : Half) : State :=
  { withRange0 { RangeUnit.empty offset size with nsnake := 2 } with mem := writePixel [] 9 0x000000FF }

/-- V-CLR-1 and V-CLR-2: the frame is blacked exactly by a range that owns the strip. -/
theorem test_range_clear :
    (let run := fun s => see (fun t => ((t.ranges[0]?).map (·.nsnake), t.frame 9, t.flushCnt, t.phase))
       (latched 0x11000000 .zero 0 s)
     run (twoSnakes 0 10) = some (some 0, 0, 0, .idle) ∧ run (twoSnakes 6 4) = some (some 0, 0x000000FF, 0, .idle)) := by
  dsimp only
  decide

/-- V-CLR-3. -/
theorem test_range_clear_unconfigured : see errors (latched 0x11100000 .zero 0 .reset) = some (0b000100, 3, 0x11100000) := by
  decide

/-- V-SNK-2: the start is reduced modulo the size. -/
theorem test_add_snake :
    see (fun t => (t.ranges[0]?).map fun R => (R.nsnake, R.snake[0]))
        (latched 0x12000001 ⟨0x00FF0000, 0x0002000C, 0x0100, 100⟩ 7 .reset) =
      some (some (1, { color := 0x00FF0000, start := 12, dir := .ccw, len := 2, fade := 0x100, bk := ⟨100, 7, 0⟩,
                       head := 2 })) := by decide

/-- V-SNK-3: the fifth Snake is dropped with no error. -/
theorem test_add_snake_full :
    (let s := withRange0 { RangeUnit.empty 0 10 with nsnake := 4 }
     see (fun t => (t.ranges == s.ranges, errors t)) (latched 0x12000000 ⟨1, 2, 3, 4⟩ 0 s) = some (true, (0, 0, 0))) := by
  dsimp only
  decide

/-- V-PUL-4, the first registration. -/
theorem test_add_pulse :
    see (fun t => (t.ranges[0]?).map fun R => (R.pulseAct, R.pulse)) (latched 0x13000000 ⟨0xFF00, 0, 0, 50⟩ 0 .reset) =
      some (some (true, { color := 0xFF00, bk := ⟨50, 0, 0⟩, level := 0 })) := by decide

/-- V-PUL-4, the second registration. -/
theorem test_add_pulse_dropped :
    (let s := withRange0 { RangeUnit.empty 0 10 with pulseAct := true }
     see (·.ranges) (latched 0x13000000 ⟨0xFF, 0, 0, 10⟩ 0 s) = some s.ranges) := by
  dsimp only
  decide

/-- V-RND-5. -/
theorem test_add_random :
    see (fun t => (t.ranges[0]?).map fun R => (R.rndAct, R.rnd)) (latched 0x14000002 ⟨0xFF, 0, 0, 200⟩ 0 .reset) =
      some (some (true, { Rnd.zero with fg := 0xFF, count := 2, bk := ⟨200, 0, 0⟩ })) := by decide

/-- V-RND-7 and V-RND-9: an argument error wins over a full collection, a unit error over an argument error. -/
theorem test_add_random_errors :
    see errors (latched 0x14000009 .zero 0 (withRange0 { RangeUnit.empty 0 10 with rndAct := true })) =
        some (0b001000, 4, 0x14000009) ∧
      see errors (latched 0x14100009 .zero 0 .reset) = some (0b000100, 3, 0x14100009) := by decide

/-- A range of the whole strip with one Snake in slot 0. -/
def oneSnake (dir : Dir) (len fade : Half) : State :=
  withRange0 { RangeUnit.empty 0 10 with
    nsnake := 1
    snake := #v[{ color := 0x00FF0000, start := 0, dir := dir, len := len, fade := fade, bk := ⟨100, 0, 0⟩, head := 0 },
      .zero, .zero, .zero] }

/-- V-UPD-2 and V-UPD-3. -/
theorem test_range_update_snake :
    see pixels (latched 0x15000000 .zero 100 (oneSnake .cw 4 0x100)) =
        some [0xE30000, 0xFF0000, 0, 0, 0, 0, 0, 0, 0xAA0000, 0xC60000] ∧
      see pixels (latched 0x15000000 .zero 100 (oneSnake .ccw 3 0x100)) =
        some [0xE30000, 0xC60000, 0, 0, 0, 0, 0, 0, 0, 0xFF0000] := by decide

/-- A range of the whole strip with one Random instance of count 2, and three answers fixed. -/
def oneRandom : State :=
  { withRange0 { RangeUnit.empty 0 10 with
      rndAct := true
      rnd := { Rnd.zero with fg := 0xFF, bg := 0x10000, count := 2, bk := ⟨100, 0, 0⟩ } } with
    rng := { answers := [7, 3, 5], count := 0 } }

/-- V-RND-1 on ten pixels: three beats at once draw twice, the ring keeps both answers, and the update flushes. -/
theorem test_range_update_random :
    see (fun t => (pixels t, t.rng.answers)) (latched 0x15000000 .zero 300 oneRandom) =
        some ([0x10000, 0x10000, 0x10000, 0xFF, 0x10000, 0x10000, 0x10000, 0xFF, 0x10000, 0x10000], [5]) ∧
      see (fun t => (t.ranges[0]?).map fun R => (R.rnd.hist[0], R.rnd.hist[1], R.rnd.len, R.rnd.cur))
        (latched 0x15000000 .zero 300 oneRandom) = some (some (3, 7, 2, 1)) ∧
      see (fun t => (t.writeCnt, t.flushCnt, t.showReq, t.phase)) (latched 0x15000000 .zero 300 oneRandom) =
        some (1, 1, true, .waitShow) := by decide

/-- An SPC unit with a Solid red and a Pulse-wave of half 4 (V-SPC-2). -/
def redWave (phase : BitVec 12) (cum : Word) : State :=
  withSpc0 { SpcUnit.empty false with
    npat := 2
    pat := #v[{ kind := .solid, colA := 0x00FF0000, colB := 0, half := 0, bk := .zero, phase := 0 },
      { kind := .pwave, colA := 0, colB := 0, half := 4, bk := ⟨50, 0, cum⟩, phase := phase }] }

/-- V-SPC-12. -/
theorem test_spc_clear :
    see (fun t => (t.spc.map fun S => (S.npat, S.pixel), t.phase)) (latched 0x20000000 .zero 0 (redWave 1 1)) =
      some ([(0, 0)], .idle) := by decide

/-- 44_single_pixel R553, example. -/
theorem test_spc_add_solid :
    see (fun t => t.spc.map fun S => (S.npat, S.pat[0])) (latched 0x21000000 ⟨0x00FF0000, 1, 2, 3⟩ 9 .reset) =
      some [(1, { kind := .solid, colA := 0x00FF0000, colB := 0, half := 0, bk := ⟨0, 9, 0⟩, phase := 0 })] := by decide

/-- 44_single_pixel R555, example. -/
theorem test_spc_add_blink :
    see (fun t => t.spc.map fun S => (S.npat, S.pat[0])) (latched 0x22000000 ⟨0x00FF0000, 0xFF, 2, 500⟩ 0 .reset) =
      some [(1, { kind := .blink, colA := 0x00FF0000, colB := 0xFF, half := 0, bk := ⟨500, 0, 0⟩, phase := 0 })] := by
  decide

/-- V-SPC-6. -/
theorem test_spc_add_blink_dropped :
    see (fun t => (t.spc, errors t)) (latched 0x22000000 ⟨1, 2, 3, 4⟩ 0 (redWave 0 0)) =
      some ((redWave 0 0).spc, (0, 0, 0)) := by decide

/-- 44_single_pixel R557, example, and V-SPC-9. -/
theorem test_spc_add_pwave :
    see (fun t => t.spc.map fun S => (S.npat, S.pat[0])) (latched 0x23000004 ⟨1, 2, 3, 4⟩ 0 .reset) =
        some [(1, { kind := .pwave, colA := 0, colB := 0, half := 4, bk := ⟨50, 0, 0⟩, phase := 0 })] ∧
      see errors (latched 0x23000000 .zero 0 .reset) = some (0b001000, 4, 0x23000000) := by decide

/-- V-SPC-2 and V-SPC-4. -/
theorem test_spc_update :
    see (fun t => (t.spc.map fun S => (S.pixel, S.pat[1].phase))) (latched 0x24000000 .zero 50 (redWave 0 0)) =
        some [(0x00400000, 1)] ∧
      see (fun t => (t.spc.map fun S => (S.pixel, S.pat[1].phase))) (latched 0x24000000 .zero 300 (redWave 4 4)) =
        some [(0x00800000, 6)] ∧
      see (fun t => (t.spc.map SpcUnit.showReq, t.spcFlushCnt, t.phase)) (latched 0x24000000 .zero 50 (redWave 0 0)) =
        some ([true], 1, .waitSpc 0) := by decide

/-- V-SPC-11. -/
theorem test_spc_update_absent : see errors (latched 0x24100000 .zero 0 .reset) = some (0b000100, 3, 0x24100000) := by decide

/-- V-ERR-1: an undefined opcode. -/
theorem test_undefined_opcode :
    see (fun t => (errors t, t.status, t.phase)) (latched 0x05000000 .zero 0 .reset) =
      some ((0b000001, 1, 0x05000000), 0x00000100, .idle) := by decide

/-- V-UPD-10: dry-run writes the frame and does not flush. -/
theorem test_dry_run :
    (let s := (latched 0x15000000 .zero 100 (oneSnake .cw 3 0)).withLatchedMode .dryRun
     see (fun t => (pixels t, t.writeCnt, t.flushCnt, t.showReq, t.phase)) s =
       some ([0xFF0000, 0xFF0000, 0, 0, 0, 0, 0, 0, 0, 0xFF0000], 1, 0, false, .idle)) := by
  dsimp only
  decide

/-! ## One step of another agent -/

/-- The state whose next step is this move. -/
def moved (m : Move) (s : State) : State := { s with agenda := [m] }

/-- What a host read returns. -/
def reads (off : Nat) (s : State) : Option Word := see (·.rdata) (moved (.read off .b4) s)

/-- V-RST-1. -/
theorem test_reads_after_reset :
    ([0x000, 0x004, 0x008, 0x00C, 0x100, 0x140, 0x040, 0x300, 0x030, 0x10000] : List Nat).map (reads · .reset) =
      [some 0x424B4301, some 0x000A0212, some 0, some 0, some 0x000A0000, some 0, some 0, some 0, some 0, some 0] := by
  decide

/-- V-ACC-1, V-ACC-2 and V-ACC-4, of a state whose pixels and counts are not 0. -/
theorem test_reads_of_nothing :
    ([0x0C0, 0x04C, 0x3F0, 0x8000, 0x010, 0x10000 + 40] : List Nat).map (reads · (twoSnakes 0 10)) =
      List.replicate 6 (some 0) := by decide

/-- V-SPC-4 and P2: `SSTAT` and `RSTAT`. -/
theorem test_readback :
    reads 0x304 (redWave 6 6) = some 0x000000D2 ∧
      reads 0x104 (withRange0 { RangeUnit.empty 0 10 with
        nsnake := 1, pulseAct := true, pulse := { Pulse.zero with level := 1 } }) = some 0x00000031 := by decide

/-- V-ERR-4 and V-ERR-5. -/
theorem test_ctrl_write :
    see (fun t => (t.dbgMode, errors t)) (moved (.write 0x008 .b4 0x00000003) .reset) = some (.off, (0b001000, 4, 3)) ∧
      see (·.dbgMode) (moved (.write 0x008 .b4 0xFFFFFFFE) .reset) = some .dryRun := by decide

/-- V-ERR-6. -/
theorem test_status_write :
    see (fun t => (t.status, t.errCode, t.errInfo))
        (moved (.write 0x00C .b4 0x00000500) { State.reset with errs := 0b001111, errCode := 4, errInfo := 9 }) =
      some (0x00000A00, 4, 9) := by decide

/-- V-ERR-7 and V-ERR-8. -/
theorem test_bad_access :
    see errors (moved (.write 0x012 .b4 0xFFFFFFFF) .reset) = some (0b100000, 6, 0x12) ∧
      see (fun t => (errors t, t.rdata)) (moved (.read 0x000 .b2) .reset) = some ((0b100000, 6, 0), 0) := by decide

/-- A waiting Engine (V-UPD-15) and the dropped command of program P4. -/
def waiting : State := { State.reset with phase := .waitShow, showReq := true, latch := { Latch.zero with word := 0x15000000 } }

/-- R815: beside an EXEC step (here RANGE_CLEAR of the strip) the device may see a pixel after the step and then one, or the
same one, before it. -/
theorem test_device_reads_beside_exec :
    see (fun t => (t.scanned, t.devIdx, t.devPixel))
        (moved (.scan [⟨0, true⟩, ⟨0, false⟩, ⟨9, false⟩, ⟨10, false⟩])
          { latched 0x11000000 .zero 0 .reset with mem := writePixels [] 0 (List.replicate 10 0x01020304) }) =
      some ([0, 0x01020304, 0x01020304, 0], 10, 0) := by decide

theorem test_cmd_write_while_busy :
    see (fun t => (errors t, t.phase, t.latch.word)) (moved (.write 0x010 .b4 0x02000000) waiting) =
      some ((0b010000, 5, 0x02000000), .waitShow, 0x15000000) := by decide

/-- V-UPD-15: the wait lasts until the acknowledge, and then ends (70_reset R811). -/
theorem test_flush_wait :
    see (·.status) waiting = some 1 ∧ see (fun t => (t.showReq, t.phase)) { waiting with showAck := true } =
      some (false, .idle) := by decide

/-- 70_reset R803: reset abandons a wait and keeps the clock. -/
theorem test_reset_abandons_wait :
    see (fun t => (t.phase, t.showReq, t.rstN, t.nowMs)) (moved .assertReset { waiting with nowMs := 77 }) =
      some (.idle, false, false, 77) := by decide

/-- The port of 10_state R104. -/
theorem test_dev_pixel :
    { twoSnakes 0 10 with devIdx := 9 }.devPixel = 0x000000FF ∧ { twoSnakes 0 10 with devIdx := 10 }.devPixel = 0 := by
  decide

/-- A command placed for the next step runs as the first after reset (log 3). -/
theorem test_withFetchWord :
    decodeTableWord 32 0x02000000 = some (.bkPoll 0) ∧
      step (State.reset.withFetchWord 32 0x02000000) =
        exec (.bkPoll 0) (State.reset.withFetchWord 32 0x02000000) := ⟨by decide, rfl⟩

/-! ## Witnesses: a state and operands that meet the hypotheses of each statement, each clause at a boundary value -/

theorem witness_DecodeAndEncodeAgree :
    (Instr.spcAddPwave 15 2047).wellFormed = true ∧ decode 0x23F007FF = .command (.spcAddPwave 15 2047) := by decide

theorem witness_DecodeAgreesWithOpcodeMap :
    Instr.rangeAddRandom 0 0 ∈ opcodeMap ∧ (Instr.rangeAddRandom 0 0).row.spells 0x14F0000F = true ∧
      (Instr.rangeAddRandom 15 15).wellFormed = true := by decide

theorem witness_StepRunsDecodedCommand :
    (let s := latched 0x02000000 .zero 0 .reset
     s.rstN = true ∧ s.phase = .exec ∧ decode s.latch.word = .command (.bkPoll 0) ∧ s.agenda = [] ∧
       { s with agenda := [Move.engine] }.agenda = .engine :: []) := by decide

/-- The edges of the three undefined opcode intervals, and a defined opcode with its lowest required-zero bit set. -/
theorem witness_RejectedWordsAreRecorded :
    EngineNext (latched 0x25000000 .zero 0 .reset) ∧ (latched 0x25000000 .zero 0 .reset).phase = .exec ∧
      ([0x04, 0x0F, 0x16, 0x1F, 0x25, 0xFF] : List Nat).all (fun o =>
        (0x04 ≤ o ∧ o ≤ 0x0F) ∨ (0x16 ≤ o ∧ o ≤ 0x1F) ∨ 0x25 ≤ o) = true ∧
      Instr.rangeAddRandom 0 0 ∈ opcodeMap ∧ (0x14000010#32).toNat / 2 ^ 24 = (Instr.rangeAddRandom 0 0).opc ∧
      0x14000010 &&& (Instr.rangeAddRandom 0 0).row.mask ≠ (Instr.rangeAddRandom 0 0).row.matchBits := by decide

theorem witness_InvalidUnitIsRecorded :
    ¬ unitValid State.reset (.bkPoll 2) ∧ ¬ unitValid State.reset (.rangeCfg 2) ∧
      ¬ unitValid State.reset (.rangeUpdate 1) ∧ ¬ unitValid State.reset (.spcUpdate 1) := by
  refine ⟨by simp only [unitValid]; decide, by simp only [unitValid]; decide, ?_, by simp only [unitValid]; decide⟩
  rintro ⟨R, hR, hz⟩
  have e : State.reset.ranges[1]? = some (.empty 0 0) := by decide
  rw [e] at hR
  exact hz (by rw [← Option.some.inj hR]; rfl)

/-- Range 0 is configured right after reset. -/
theorem range0_valid : ∃ R, State.reset.ranges[0]? = some R ∧ R.size ≠ 0 := ⟨.empty 0 10, by decide, by decide⟩

/-- The last legal and the first illegal value of each operand (30_encoding R317). -/
theorem witness_IllegalOperandIsRecorded :
    (unitValid State.reset (.rangeAddRandom 0 8) ∧ operandsLegal State.reset (.rangeAddRandom 0 8)) ∧
    (unitValid State.reset (.rangeAddRandom 0 9) ∧ ¬ operandsLegal State.reset (.rangeAddRandom 0 9)) ∧
    (unitValid State.reset (.spcAddPwave 0 1) ∧ operandsLegal State.reset (.spcAddPwave 0 1)) ∧
    (unitValid State.reset (.spcAddPwave 0 0) ∧ ¬ operandsLegal State.reset (.spcAddPwave 0 0)) ∧
    unitValid (latched 0 ⟨0, 0, 0x10000, 0⟩ 0 .reset) .blend ∧
    operandsLegal (latched 0 ⟨0, 0, 0x10000, 0⟩ 0 .reset) .blend ∧
    ¬ operandsLegal (latched 0 ⟨0, 0, 0x10001, 0⟩ 0 .reset) .blend ∧
    unitValid (latched 0 ⟨0x00010009, 0, 0, 0⟩ 0 .reset) (.rangeCfg 1) ∧
    operandsLegal (latched 0 ⟨0x00010009, 0, 0, 0⟩ 0 .reset) (.rangeCfg 1) ∧
    ¬ operandsLegal (latched 0 ⟨0x000A0001, 0, 0, 0⟩ 0 .reset) (.rangeCfg 1) ∧
    ¬ operandsLegal (latched 0 ⟨0x00000003, 0, 0, 0⟩ 0 .reset) (.rangeCfg 1) := by
  refine ⟨⟨range0_valid, ?_⟩, ⟨range0_valid, ?_⟩, ?_, ?_, ?_, ?_, ?_, ?_, ?_, ?_, ?_⟩ <;>
    simp only [unitValid, operandsLegal] <;> decide

/-- Every command is valid and legal somewhere: here after reset, with a legal interval and gamma latched. -/
theorem witness_EveryValidCommandCompletes :
    ∀ i ∈ [Instr.nop, .bkReset 0, .bkPoll 1, .blend, .rangeCfg 1, .rangeClear 0, .rangeAddSnake 0 .ccw, .rangeAddPulse 0,
      .rangeAddRandom 0 8, .rangeUpdate 0, .spcClear 0, .spcAddSolid 0, .spcAddBlink 0, .spcAddPwave 0 2047, .spcUpdate 0],
      unitValid (latched 0 ⟨0x00040006, 0, 0x10000, 0⟩ 0 .reset) i ∧
        operandsLegal (latched 0 ⟨0x00040006, 0, 0x10000, 0⟩ 0 .reset) i := by
  intro i hi
  simp only [List.mem_cons, List.not_mem_nil, or_false] at hi
  rcases hi with rfl | rfl | rfl | rfl | rfl | rfl | rfl | rfl | rfl | rfl | rfl | rfl | rfl | rfl | rfl <;>
    simp only [unitValid, operandsLegal] <;> decide

theorem witness_BkResetSetsTheChannel : 1 < State.reset.numGbk := by decide

/-- One state for each case of a poll at 1000, each at its boundary. -/
theorem witness_BkPollReturnsTheBeats :
    (let at1000 := fun bk => latched 0x02000000 .zero 1000 (withGbk0 bk)
     (∀ bk : BeatKeeper, bk ∈ [⟨0, 7, 0⟩, ⟨100, 1001, 0⟩, ⟨100, 900, 2⟩, ⟨100, 1000, 0⟩] → (at1000 bk).gbk[0]? = some bk) ∧
       (at1000 ⟨100, 1001, 0⟩).nowMs.toNat < (1001#32).toNat ∧
       (¬ (at1000 ⟨100, 900, 2⟩).nowMs.toNat < (900#32).toNat ∧ (1000 - 900) / 100 < 2) ∧
       ¬ (at1000 ⟨100, 1000, 0⟩).nowMs.toNat < (1000#32).toNat ∧ ¬ (1000 - 1000) / 100 < 0) := by
  refine ⟨fun bk _ => rfl, ?_⟩
  decide

/-- The last millisecond of the period that the first poll fell in, and the first of it. -/
theorem witness_PollIsIdempotent :
    (let bk' := polled 1250 { dur := 100, start := 1000, cum := 0 }
     (bk'.start.toNat ≤ (1299 : Word).toNat ∧ bk'.start.toNat ≤ (1200 : Word).toNat) ∧
       ((1299 : Word).toNat - bk'.start.toNat) / bk'.dur.toNat = ((1250 : Word).toNat - bk'.start.toNat) / bk'.dur.toNat ∧
       ((1200 : Word).toNat - bk'.start.toNat) / bk'.dur.toNat = ((1250 : Word).toNat - bk'.start.toNat) / bk'.dur.toNat) :=
  ⟨⟨by decide, by decide⟩, by decide, by decide⟩

theorem witness_PollsCatchUp :
    (1 : Word) ≠ 0 ∧ (0 :: ([0, 5, 5] ++ [0xFFFFFFFF]) : List Word).Pairwise (fun t u => t.toNat ≤ u.toNat) := by decide

theorem witness_BlendAddsEachChannel : 0 < 65536 ∧ 65536 ≤ 65536 := by decide

theorem witness_BlendAtGammaOneAndZero : 0 < 1 := by decide

theorem witness_ScaleWeighsEachChannel : 0 < 3 ∧ 1 ≤ 3 := by decide

theorem witness_BlendCommandWritesResult : (latched 0 ⟨0, 1, 0x10000, 0⟩ 0 .reset).latch.a.a2.toNat ≤ 0x10000 := by decide

/-- A one-pixel range at the end of the strip, and the whole strip. -/
theorem witness_RangeCfgSetsTheInterval :
    State.reset.ranges[1]? = some (.empty 0 0) ∧
      ((0x00010009#32).toNat / 2 ^ 16 ≠ 0 ∧
        (0x00010009#32).toNat % 2 ^ 16 + (0x00010009#32).toNat / 2 ^ 16 ≤ State.reset.stripLen) ∧
      (0x000A0000#32).toNat % 2 ^ 16 + (0x000A0000#32).toNat / 2 ^ 16 ≤ State.reset.stripLen := by decide

/-- A range that owns the strip and one that is one pixel short of it. -/
theorem witness_RangeClearDropsEffects :
    (let R := { RangeUnit.empty 0 10 with nsnake := 2 }
     (twoSnakes 0 10).ranges[0]? = some R ∧ R.size ≠ 0 ∧ Memory.wf (twoSnakes 0 10).mem = true ∧
       (R.offset = 0 ∧ R.size.toNat = (twoSnakes 0 10).stripLen)) ∧
    (let R := { RangeUnit.empty 1 9 with nsnake := 2 }
     (twoSnakes 1 9).ranges[0]? = some R ∧ R.size ≠ 0 ∧ ¬ (R.offset = 0 ∧ R.size.toNat = (twoSnakes 1 9).stripLen)) := by
  decide

theorem witness_AddSnakeFillsTheNextSlot :
    ∀ n : Fin 5, (withRange0 { RangeUnit.empty 0 10 with nsnake := n }).ranges[0]? =
      some { RangeUnit.empty 0 10 with nsnake := n } ∧ { RangeUnit.empty 0 10 with nsnake := n }.size ≠ 0 ∧
        (n.val = 4 ∨ ∃ m : Fin 4, n.val = m.val) := by decide

theorem witness_AddPulseStartsOff : State.reset.ranges[0]? = some (.empty 0 10) ∧ (RangeUnit.empty 0 10).size ≠ 0 := by decide

theorem witness_AddRandomStartsEmpty :
    State.reset.ranges[0]? = some (.empty 0 10) ∧ (RangeUnit.empty 0 10).size ≠ 0 ∧ 8 ≤ 8 ∧
      (RangeUnit.empty 0 10).rndAct = false ∧ { RangeUnit.empty 0 10 with rndAct := true }.rndAct = true := by decide

/-- A range whose Snake, Pulse and Random instance are all active, with one period. -/
def busyRange (bk : BeatKeeper) : RangeUnit :=
  { RangeUnit.empty 0 10 with
    nsnake := 1
    snake := #v[{ Snake.zero with color := 1, len := 2, bk := bk }, .zero, .zero, .zero]
    pulseAct := true
    pulse := { color := 3, bk := bk, level := 0 }
    rndAct := true
    rnd := { Rnd.zero with count := 8, bk := bk } }

/-- One millisecond before the first beat. -/
theorem witness_ThrottledUpdateOnlyPolls :
    (let R := busyRange ⟨100, 0, 0⟩
     let s := latched 0x15000000 .zero 99 (withRange0 R)
     s.ranges[0]? = some R ∧ R.size ≠ 0 ∧ (∀ k : Fin 4, k.val < R.nsnake.val → beats s.nowMs R.snake[k].bk = 0) ∧
       (R.pulseAct = true ∧ beats s.nowMs R.pulse.bk = 0) ∧ (R.rndAct = true ∧ beats s.nowMs R.rnd.bk = 0)) := by
  dsimp only
  decide

/-- The first beat, from each kind of instance. -/
theorem witness_UpdateWritesTheComposedRange :
    (let R := busyRange ⟨100, 0, 0⟩
     let s := latched 0x15000000 .zero 100 (withRange0 R)
     s.ranges[0]? = some R ∧ R.size ≠ 0 ∧ Memory.wf s.mem = true ∧
       (0 < R.nsnake.val ∧ beats s.nowMs R.snake[0].bk ≠ 0) ∧ (R.pulseAct = true ∧ beats s.nowMs R.pulse.bk ≠ 0) ∧
       (R.rndAct = true ∧ beats s.nowMs R.rnd.bk ≠ 0)) := by
  dsimp only
  decide

theorem witness_UpdateAdvancesEachByItsOwnBeats :
    (busyRange ⟨100, 0, 0⟩).pulseAct = true ∧ (busyRange ⟨100, 0, 0⟩).rndAct = true ∧
      (RangeUnit.empty 0 10).pulseAct = false ∧ (RangeUnit.empty 0 10).rndAct = false := by decide

/-- The smallest and the largest range, in both directions. -/
theorem witness_SnakeHeadMovesByTheBeats :
    (0 < 1 ∧ 1 < 2 ^ 16 ∧ Snake.zero.head.toNat < 1 ∧ Snake.zero.dir = .cw) ∧
      (0 < 65535 ∧ 65535 < 2 ^ 16 ∧ { Snake.zero with dir := .ccw, head := 65534 }.head.toNat < 65535 ∧
        { Snake.zero with dir := .ccw, head := 65534 }.dir = .ccw) := by decide

theorem witness_SnakeDistanceCountsSteps :
    (0 < 1 ∧ Snake.zero.head.toNat < 1 ∧ Snake.zero.dir = .cw) ∧
      (9 < 10 ∧ { Snake.zero with dir := .ccw, head := 9 }.head.toNat < 10 ∧
        { Snake.zero with dir := .ccw, head := 9 }.dir = .ccw) := by decide

/-- A Snake of length 3 at 0: the head, the last pixel of the trail and the first beyond it. -/
theorem witness_SnakeAddsItsFadedTrail :
    (let sn := { Snake.zero with len := 3 }
     (sn.head.toNat < 10 ∧ snakeDist 0 10 sn = 0 ∧ snakeDist 0 10 sn < sn.len.toNat) ∧
       (snakeDist 8 10 sn = 2 ∧ snakeDist 8 10 sn < sn.len.toNat) ∧ sn.len.toNat ≤ snakeDist 7 10 sn) := by decide

/-- No Random instance; an inert one beside all four Snakes and a Pulse that is on; and a lone Snake. -/
theorem witness_ComposeSumsSnakesAndPulse :
    ((RangeUnit.empty 0 10).rndAct = false ∧
      { RangeUnit.empty 0 10 with nsnake := 4, pulseAct := true, rndAct := true }.rnd.count.val = 0) ∧
    (let R := { RangeUnit.empty 0 10 with nsnake := 4, pulseAct := true, pulse := { Pulse.zero with level := 1 } }
     3 < R.nsnake.val ∧ R.pulseAct = true ∧ R.pulse.level ≠ 0) ∧
    (let R := { RangeUnit.empty 0 10 with nsnake := 1, snake := (RangeUnit.empty 0 10).snake }
     R.nsnake.val = 1 ∧ R.pulseAct = false ∧ R.rndAct = false ∧ R.snake[0].fade = 0 ∧ 9 < R.size.toNat ∧
       R.snake[0].head.toNat < R.size.toNat) := by decide

/-- No beat, fewer beats than the ring holds, and more. -/
theorem witness_RandomAdvanceIsSequentialInsertion :
    (let x := { Rnd.zero with count := 2 }
     0 < 10 ∧ x.count.val ≠ 0 ∧ x.len.val ≤ x.count.val ∧ x.cur.val < x.count.val ∧
       ∀ vs ∈ ([[], [9], [1, 0, 9]] : List (List Nat)), (∀ v ∈ vs, v < 10) ∧
         ∃ o : Oracle, o.answers = vs.drop (vs.length - x.count.val) ++ [4]) := by
  refine ⟨by decide, by decide, by decide, by decide, fun vs hv => ⟨?_, ⟨⟨_, 0⟩, rfl⟩⟩⟩
  revert vs
  decide

theorem witness_InertRandomStillTriggers :
    (let R := { RangeUnit.empty 0 10 with rndAct := true, rnd := { Rnd.zero with bk := ⟨100, 0, 0⟩ } }
     let s := latched 0x15000000 .zero 100 (withRange0 R)
     s.ranges[0]? = some R ∧ R.size ≠ 0 ∧ R.rndAct = true ∧ R.rnd.count.val = 0 ∧ beats s.nowMs R.rnd.bk ≠ 0) := by
  dsimp only
  decide

/-- A full ring that holds index 0 only: pixel 0 is lit, pixel 1 is not. -/
theorem witness_RandomOverwritesTheRange :
    (let R := { RangeUnit.empty 0 10 with rndAct := true, rnd := { Rnd.zero with count := 8, len := 8 } }
     R.rndAct = true ∧ R.rnd.count.val ≠ 0 ∧ (∃ j : Fin 8, j.val < R.rnd.len.val ∧ R.rnd.hist[j].toNat = 0) ∧
       ∀ j : Fin 8, j.val < R.rnd.len.val → R.rnd.hist[j].toNat ≠ 1) := by decide

theorem witness_DryRunOnlySuppressesFlush :
    ∃ t, exec (.rangeUpdate 0) ((latched 0 .zero 100 (oneSnake .cw 3 0)).withLatchedMode .off) = .next t ∧
      t.phase = .waitShow := ⟨_, rfl, by decide⟩

theorem witness_SpcClearBlacksThePixel : State.reset.spc[0]? = some (.empty false) := by decide

/-- An empty, a half-full and a full unit; half 1 and 2047 are legal. -/
theorem witness_AddPatternFillsTheNextSlot :
    (∀ n : Fin 3, (withSpc0 { SpcUnit.empty false with npat := n }).spc[0]? = some { SpcUnit.empty false with npat := n } ∧
      (n.val = 2 ∨ ∃ m : Fin 2, n.val = m.val)) ∧ 1 ≠ 0 ∧ 2047 ≠ 0 := by decide

/-- An SPC unit with a Blink in slot 0 and, when `n = 2`, a Pulse-wave in slot 1. -/
def blinker (n : Fin 3) : SpcUnit :=
  { SpcUnit.empty false with
    npat := n
    pat := #v[{ Pattern.zero with kind := .blink, bk := ⟨100, 0, 0⟩ },
      { Pattern.zero with kind := .pwave, half := 1, bk := ⟨50, 0, 0⟩, phase := 1 }] }

/-- One millisecond before the first sub-tick. -/
theorem witness_ThrottledSpcUpdateOnlyPolls :
    (let s := latched 0x24000000 .zero 49 (withSpc0 (blinker 2))
     s.spc[0]? = some (blinker 2) ∧ (∀ j : Fin 2, j.val < (blinker 2).npat.val →
       ((blinker 2).pat[j].kind = .blink ∨ (blinker 2).pat[j].kind = .pwave) → beats s.nowMs (blinker 2).pat[j].bk = 0)) := by
  dsimp only
  decide

/-- The first beat of a lone Blink, and the first sub-tick of a Pulse-wave behind a Blink. -/
theorem witness_SpcUpdateComposesThePixel :
    (let s := fun n now => latched 0x24000000 .zero now (withSpc0 (blinker n))
     ((s 1 100).spc[0]? = some (blinker 1) ∧ ∃ j : Fin 2, j.val < (blinker 1).npat.val ∧
       ((blinker 1).pat[j].kind = .blink ∨ (blinker 1).pat[j].kind = .pwave) ∧
       beats (s 1 100).nowMs (blinker 1).pat[j].bk ≠ 0) ∧
     ((s 2 50).spc[0]? = some (blinker 2) ∧ ∃ j : Fin 2, j.val < (blinker 2).npat.val ∧
       ((blinker 2).pat[j].kind = .blink ∨ (blinker 2).pat[j].kind = .pwave) ∧
       beats (s 2 50).nowMs (blinker 2).pat[j].bk ≠ 0)) := by
  dsimp only
  decide

/-- The three kinds; the Pulse-wave at its peak and at its last phase. -/
theorem witness_PatternsContributeByKind :
    { Pattern.zero with kind := .solid }.kind = .solid ∧ { Pattern.zero with kind := .blink }.kind = .blink ∧
      (let p := { Pattern.zero with kind := .pwave, half := 2047, phase := 2047 }
       p.kind = .pwave ∧ 1 ≤ p.half.toNat ∧ p.phase.toNat < 2 * p.half.toNat ∧ p.phase.toNat ≤ p.half.toNat) ∧
      (let p := { Pattern.zero with kind := .pwave, half := 2047, phase := 4093 }
       p.kind = .pwave ∧ 1 ≤ p.half.toNat ∧ p.phase.toNat < 2 * p.half.toNat ∧ p.half.toNat < p.phase.toNat) := by decide

theorem witness_CommandsLeaveRegistersAlone :
    (∃ t, exec (.bkReset 0) State.reset = .next t) ∧ Instr.bkReset 0 ≠ .blend ∧
      Instr.bkReset 0 ≠ .bkPoll (Instr.bkReset 0).unitNum ∧ Instr.bkReset 0 ≠ .rangeUpdate (Instr.bkReset 0).unitNum ∧
      Instr.bkReset 0 ≠ .spcUpdate (Instr.bkReset 0).unitNum := ⟨⟨_, rfl⟩, by decide⟩

theorem witness_CommandsTouchOnlyTheNamedUnit :
    (∃ t, exec (.rangeClear 0) State.reset = .next t) ∧ (Instr.rangeClear 0).opc ≠ 0x01 ∧ (Instr.rangeClear 0).opc ≠ 0x02 ∧
      (Instr.rangeClear 0).opc / 16 ≠ 2 ∧ (Instr.bkReset 0).opc / 16 ≠ 1 ∧ 1 ≠ (Instr.rangeClear 0).unitNum :=
  ⟨⟨_, rfl⟩, by decide⟩

theorem witness_CommandsLeaveTheFrameAlone :
    (∃ t, exec (.rangeUpdate 0) (latched 0 .zero 100 (oneSnake .cw 3 0)) = .next t) ∧ Memory.wf (twoSnakes 0 10).mem = true ∧
      (∃ t, exec (.rangeClear 0) (twoSnakes 0 10) = .next t) ∧ (∃ t, exec .nop State.reset = .next t) ∧
      (∃ R, (oneSnake .cw 3 0).ranges[0]? = some R) := ⟨⟨_, rfl⟩, by decide, ⟨_, rfl⟩, ⟨_, rfl⟩, ⟨_, rfl⟩⟩

theorem witness_CmdWriteIsAcceptedOrDropped :
    (let s := moved (.write 0x010 .b4 5) .reset
     s.rstN = true ∧ s.agenda = .write 0x010 .b4 5 :: [] ∧ s.phase = .idle) ∧
    (let s := moved (.write 0x010 .b4 5) waiting
     s.rstN = true ∧ s.agenda = .write 0x010 .b4 5 :: [] ∧ s.phase ≠ .idle) := by decide

theorem witness_ArgWriteStoresTheValue :
    ∀ k : Fin 4, (moved (.write (0x014 + 4 * k.val) .b4 5) waiting).agenda = .write (0x014 + 4 * k.val) .b4 5 :: [] ∧
      (moved (.write (0x014 + 4 * k.val) .b4 5) waiting).rstN = true := by decide

theorem witness_CtrlWriteStoresTheMode :
    State.reset.rstN = true ∧ (moved (.write 0x008 .b4 0xFFFFFFFF) .reset).agenda = .write 0x008 .b4 0xFFFFFFFF :: [] ∧
      (0xFFFFFFFC#32).toNat % 4 = 0 ∧ (0xFFFFFFFD#32).toNat % 4 = 1 ∧ (0xFFFFFFFE#32).toNat % 4 = 2 ∧
      (0xFFFFFFFF#32).toNat % 4 = 3 := by decide

theorem witness_StatusWriteClearsErrorBits :
    State.reset.rstN = true ∧ (moved (.write 0x00C .b4 0x3F00) .reset).agenda = .write 0x00C .b4 0x3F00 :: [] := by decide

/-- A misaligned access at the end of the aperture, a short one at its start. -/
theorem witness_BadAccessIsRecorded :
    (moved (.write 0x4FFFF .b4 1) .reset).rstN = true ∧ 0x4FFFF < 0x50000 ∧ 0x4FFFF % 4 ≠ 0 ∧ AccSize.b1 ≠ .b4 ∧
      (moved (.write 0x4FFFF .b4 1) .reset).agenda = .write 0x4FFFF .b4 1 :: [] ∧
      (moved (.read 0 .b1) .reset).agenda = .read 0 .b1 :: [] := by decide

theorem witness_OtherWritesAreIgnored :
    ∀ off ∈ [0x000, 0x004, 0x024, 0x4FFFC], off < 0x50000 ∧ off % 4 = 0 ∧ ¬ (0x008 ≤ off ∧ off ≤ 0x020) ∧
      (moved (.write off .b4 1) .reset).agenda = .write off .b4 1 :: [] := by decide

theorem witness_ReadsHaveNoSideEffect :
    (moved (.read 0x4FFFC .b4) waiting).agenda = .read 0x4FFFC .b4 :: [] ∧ 0x4FFFC < 0x50000 ∧ 0x4FFFC % 4 = 0 ∧
      (moved (.read 0x4FFFC .b4) waiting).rstN = true := by decide

theorem witness_HostRegistersReadExactly :
    waiting.rstN = true ∧ waiting.params.legal ∧
      (∀ off ∈ [0x000, 0x004, 0x008, 0x00C, 0x010, 0x014, 0x020, 0x028],
        (moved (.read off .b4) waiting).agenda = .read off .b4 :: []) ∧
      ∀ off ∈ [0x0C0, 0x0FC, 0x400, 0xFFFC], off % 4 = 0 ∧
        ((0x0C0 ≤ off ∧ off < 0x100) ∨ (0x400 ≤ off ∧ off < 0x10000)) ∧
        (moved (.read off .b4) waiting).agenda = .read off .b4 :: [] := by decide

theorem witness_EngineWrittenReads :
    State.reset.rstN = true ∧ State.reset.phase = .idle ∧ waiting.phase ≠ .idle ∧
      (7 < 8 ∧ 3 < 4 ∧ State.reset.gbk[7]? = none ∧ State.reset.gbk[1]? = some .zero) ∧
      (9 < State.reset.stripLen ∧ ¬ 10 < State.reset.stripLen ∧ 65535 < 65536) ∧
      (∀ off ∈ [0x024, 0x02C, 0x030, 0x034, 0x038, 0x03C, 0x040 + 16 * 7 + 4 * 3, 0x10000 + 4 * 65535],
        (moved (.read off .b4) .reset).agenda = .read off .b4 :: []) ∧
      ∀ off ∈ [0x024, 0x02C, 0x03C, 0x10000, 0x4FFFC], off % 4 = 0 ∧
        (off = 0x024 ∨ (0x02C ≤ off ∧ off ≤ 0x03C) ∨ (0x10000 ≤ off ∧ off < 0x50000)) ∧
        (moved (.read off .b4) waiting).agenda = .read off .b4 :: [] := by decide

/-- While a command runs: the last present and the first absent unit of each kind, and its first reserved word. -/
theorem witness_EngineWrittenReads_blocks :
    waiting.rstN = true ∧ waiting.phase ≠ .idle ∧ 1 < waiting.numGbk ∧ ¬ 2 < waiting.numGbk ∧ 1 < waiting.numRanges ∧
      ¬ 2 < waiting.numRanges ∧ 0 < waiting.numSpc ∧ ¬ 1 < waiting.numSpc ∧
      ∀ off ∈ [0x040 + 16 * 1 + 4 * 2, 0x040 + 16 * 1 + 4 * 3, 0x040 + 16 * 2, 0x100 + 64 * 1 + 4 * 7, 0x100 + 64 * 1 + 4 * 8,
          0x100 + 64 * 2, 0x300 + 4 * 3, 0x300 + 4 * 4, 0x300 + 32 * 1],
        (moved (.read off .b4) waiting).agenda = .read off .b4 :: [] := by decide

theorem witness_UnitReadback :
    State.reset.rstN = true ∧ State.reset.phase = .idle ∧ State.reset.ranges[1]? = some (.empty 0 0) ∧
      State.reset.spc[0]? = some (.empty false) ∧ State.reset.numRanges ≤ 2 ∧ State.reset.numSpc ≤ 1 ∧
      (moved (.read 0x2FC .b4) .reset).agenda = .read (0x100 + 64 * 7 + 4 * 15) .b4 :: [] ∧
      (moved (.read 0x3FC .b4) .reset).agenda = .read (0x300 + 32 * 7 + 4 * 7) .b4 :: [] := by decide

theorem witness_RunningCommandIsProtected :
    waiting.phase ≠ .idle ∧ (∃ t, step (moved (.write 0x020 .b4 9) waiting) = .next t) ∧
      ∃ t, step (moved (.read 0x000 .b4) waiting) = .next t := ⟨by decide, ⟨_, rfl⟩, ⟨_, rfl⟩⟩

theorem witness_FlushWaitEndsOnAcknowledge :
    EngineNext waiting ∧ waiting.phase = .waitShow ∧ waiting.showAck = false ∧ { waiting with showAck := true }.showAck = true ∧
      { withSpc0 (.empty true) with phase := .waitSpc 0 }.spc[0]? = some (.empty true) ∧
      (SpcUnit.empty true).showAck = true ∧ (SpcUnit.empty false).showAck = false := by decide

theorem witness_DeviceReadsTheFrame :
    (waiting.phase = .waitShow ∧ (∀ ms, (moved (.scan [⟨9, true⟩]) waiting).agenda ≠ .assertReset :: ms) ∧
      ∃ t, step (moved (.scan [⟨9, true⟩]) waiting) = .next t) ∧
    (let s := latched 0x11000000 .zero 0 .reset
     s.rstN = true ∧ s.phase = .exec ∧ decode s.latch.word = .command (.rangeClear 0) ∧
       (moved (.scan [⟨0, true⟩, ⟨9, false⟩]) s).agenda = .scan [⟨0, true⟩, ⟨9, false⟩] :: [] ∧
       ∃ t, exec (.rangeClear 0) { s with agenda := [] } = .next t) :=
  ⟨⟨by decide, fun _ h => by simp [moved] at h, ⟨_, rfl⟩⟩, by decide, by decide, by decide, rfl, ⟨_, rfl⟩⟩

/-- The smallest and the largest instance. -/
theorem witness_ResetValues :
    Config.Params.legal { stripLen := 1, numRanges := 1, numSpc := 0, numGbk := 0, dbgRst := .dryRun } ∧
      Config.Params.legal { stripLen := 65535, numRanges := 8, numSpc := 8, numGbk := 8, dbgRst := .off } := by decide

theorem witness_AssertedResetTakesResetValues : (moved .assertReset waiting).agenda = .assertReset :: [] := by decide

theorem witness_ResetHoldsThenReleases :
    (let s := waiting.heldInReset
     s.rstN = false ∧ 0x4FFFF < 0x50000 ∧ s.agenda = [] ∧ (moved .engine s).agenda = .engine :: [] ∧
       (moved (.write 0x4FFFF .b1 1) s).agenda = .write 0x4FFFF .b1 1 :: [] ∧
       (moved (.read 0 .b4) s).agenda = .read 0 .b4 :: [] ∧
       (let u := { s with agenda := [.releaseReset, .write 0x010 .b4 0x03000000] }
        u.agenda = .releaseReset :: [.write 0x010 .b4 0x03000000] ∧ u.rstN = false ∧ u = u.heldInReset)) := by decide

theorem witness_InvariantHoldsAtReset :
    Config.Params.legal { stripLen := 65535, numRanges := 8, numSpc := 8, numGbk := 8, dbgRst := .verbose } := by decide

/-- The invariant holds in the middle of a flush wait, and a step is taken from there. -/
theorem witness_StepKeepsInvariant : Inv waiting ∧ ∃ t, step waiting = .next t := by
  refine ⟨⟨by decide, by decide, by decide, by decide, ⟨by decide, by decide⟩, by decide, by decide, by decide⟩, ⟨_, rfl⟩⟩

end Sys2Proof.Tests
end

/-! ## What a command's EXEC step can do: its effect, then its ending -/

section

namespace Sys2Proof.Machine

open Sys2Proof

/-- How a command's EXEC step ends: idle, or with the flush that only the mode dry-run leaves out (10_state R123). -/
inductive Ending where
  | done
  | flush
  | spcFlush (u : Nat) (S : SpcUnit)

/-- The state an ending leaves, from the state with the command's effect. -/
def Ending.apply : Ending → State → State
  | .done, b => b.finish
  | .flush, b => b.showUnlessDryRun
  | .spcFlush u S, b => b.spcShowUnlessDryRun u S

/-- What each kind of command can change before it ends, with what it keeps of the invariant: an inversion of `exec`
(see `exec_effect`). -/
inductive Effect (i : Instr) (s : State) : Ending → State → Prop
  | error (e : ErrCode) : Effect i s .done (s.recordError e s.latch.word)
  | nop : i = .nop → Effect i s .done s
  | result (v : Word) : i = .blend → Effect i s .done { s with result := v }
  | gbk (g : Nat) (bk : BeatKeeper) : i = .bkReset g → Effect i s .done (s.setGbk g bk)
  | poll (g : Nat) (bk : BeatKeeper) (v : Word) : i = .bkPoll g → Effect i s .done { s.setGbk g bk with result := v }
  | range (R R' : RangeUnit) : i.opc / 16 = 1 → s.ranges[i.unitNum]? = some R →
      (RangeOk s.stripLen R → RangeOk s.stripLen R') → Effect i s .done (s.setRange i.unitNum R')
  | clear (r : Nat) (R R' : RangeUnit) : i = .rangeClear r → s.ranges[r]? = some R →
      (RangeOk s.stripLen R → RangeOk s.stripLen R') → Effect i s .done (s.setRange r R').blackFrame
  | update (r : Nat) (R R' : RangeUnit) (cs : List Color) (o : Oracle) : i = .rangeUpdate r →
      s.ranges[r]? = some R → R.size ≠ 0 → (RangeOk s.stripLen R → RangeOk s.stripLen R') → cs.length = R.size.toNat →
      Effect i s .flush { (s.setRange r R').writeFrame R.offset.toNat cs with rng := o, writeCnt := s.writeCnt + 1 }
  | spc (S S' : SpcUnit) : i.opc / 16 = 2 → s.spc[i.unitNum]? = some S → (i.wellFormed = true → SpcOk S → SpcOk S') →
      S'.showReq = S.showReq → S'.showAck = S.showAck → Effect i s .done (s.setSpc i.unitNum S')
  | spcUpdate (u : Nat) (S S' : SpcUnit) : i = .spcUpdate u → s.spc[u]? = some S → (SpcOk S → SpcOk S') →
      S'.showReq = S.showReq → S'.showAck = S.showAck → Effect i s (.spcFlush u S') s

/-- In every latched mode `m` the outcome `run m` is one effect on `s` with its ending, the same for all modes. -/
def HasEffect (i : Instr) (s : State) (run : DbgMode → Out) : Prop :=
  ∃ e b, Effect i s e b ∧ ∀ m, run m = .next (e.apply (b.withLatchedMode m))

/-! ### The checks of 60_exceptions R715 -/

section

variable {i : Instr} {s : State}

/-- A failed check is the effect of recording an error. -/
theorem hasEffect_engineError (e : ErrCode) :
    HasEffect i s fun m => .next ((s.withLatchedMode m).engineError e) :=
  ⟨_, _, .error e, fun _ => rfl⟩

theorem hasEffect_withGbk {g : Nat} {run : DbgMode → BeatKeeper → Out}
    (h : ∀ bk, HasEffect i s fun m => run m bk) :
    HasEffect i s fun m => withGbk g (s.withLatchedMode m) (run m) := by
  have hg (m : DbgMode) : (s.withLatchedMode m).gbk = s.gbk := rfl
  rcases e : s.gbk[g]? with _ | bk
  · simpa only [withGbk, hg, e] using hasEffect_engineError .unit
  · simpa only [withGbk, hg, e] using h bk

theorem hasEffect_withRange {r : Nat} {run : DbgMode → RangeUnit → Out}
    (h : ∀ R, s.ranges[r]? = some R → HasEffect i s fun m => run m R) :
    HasEffect i s fun m => withRange r (s.withLatchedMode m) (run m) := by
  have hr (m : DbgMode) : (s.withLatchedMode m).ranges = s.ranges := rfl
  rcases e : s.ranges[r]? with _ | R
  · simpa only [withRange, hr, e] using hasEffect_engineError .unit
  · simpa only [withRange, hr, e] using h R e

theorem hasEffect_withConfiguredRange {r : Nat} {run : DbgMode → RangeUnit → Out}
    (h : ∀ R, s.ranges[r]? = some R → R.size ≠ 0 → HasEffect i s fun m => run m R) :
    HasEffect i s fun m => withConfiguredRange r (s.withLatchedMode m) (run m) := by
  refine hasEffect_withRange fun R hR => ?_
  by_cases hz : R.size = 0
  · simpa only [if_pos hz] using hasEffect_engineError .unit
  · simpa only [if_neg hz] using h R hR hz

theorem hasEffect_withSpc {u : Nat} {run : DbgMode → SpcUnit → Out}
    (h : ∀ S, s.spc[u]? = some S → HasEffect i s fun m => run m S) :
    HasEffect i s fun m => withSpc u (s.withLatchedMode m) (run m) := by
  have hu (m : DbgMode) : (s.withLatchedMode m).spc = s.spc := rfl
  rcases e : s.spc[u]? with _ | S
  · simpa only [withSpc, hu, e] using hasEffect_engineError .unit
  · simpa only [withSpc, hu, e] using h S e

theorem hasEffect_withLegal {legal : Bool} {run : DbgMode → Out} (h : legal = true → HasEffect i s run) :
    HasEffect i s fun m => withLegal legal (s.withLatchedMode m) (run m) := by
  cases legal
  · exact hasEffect_engineError .arg
  · exact h rfl

end

/-! ### Each group of commands -/

/-- A range command that ends with one unit replaced. -/
theorem hasEffect_setRange (i : Instr) {s : State} {R : RangeUnit} (R' : RangeUnit) (hR : s.ranges[i.unitNum]? = some R)
    (h : RangeOk s.stripLen R → RangeOk s.stripLen R') (hi : i.opc / 16 = 1 := by simp [Instr.opc]) :
    HasEffect i s fun m => .next ((s.withLatchedMode m).setRange i.unitNum R').finish :=
  ⟨_, _, .range R R' hi hR h, fun _ => rfl⟩

/-- An SPC command that ends with one unit replaced, its handshake kept. -/
theorem hasEffect_setSpc (i : Instr) {s : State} {S : SpcUnit} (S' : SpcUnit) (hS : s.spc[i.unitNum]? = some S)
    (h : i.wellFormed = true → SpcOk S → SpcOk S') (hq : S'.showReq = S.showReq) (ha : S'.showAck = S.showAck)
    (hi : i.opc / 16 = 2 := by simp [Instr.opc]) :
    HasEffect i s fun m => .next ((s.withLatchedMode m).setSpc i.unitNum S').finish :=
  ⟨_, _, .spc S S' hi hS h hq ha, fun _ => rfl⟩

/-- A legal interval lies in the strip (42_range_setup R462). -/
theorem rangeOk_of_legalInterval {L : Nat} {off sz : Half} (R : RangeUnit) (h : legalInterval L off sz = true) :
    RangeOk L { dropEffects R with offset := off, size := sz } :=
  rangeOk_dropEffects (R := { R with offset := off, size := sz }) (.inr (of_decide_eq_true h).2)

theorem execRangeCfg_effect (r : Nat) (s : State) :
    HasEffect (.rangeCfg r) s fun m => execRangeCfg r (s.withLatchedMode m) :=
  hasEffect_withRange fun R hR =>
    hasEffect_withLegal (legal := legalInterval s.stripLen (lowHalf s.latch.a.a0) (highHalf s.latch.a.a0)) fun hl =>
      hasEffect_setRange (.rangeCfg r)
        { dropEffects R with offset := lowHalf s.latch.a.a0, size := highHalf s.latch.a.a0 } hR
        fun _ => rangeOk_of_legalInterval R hl

theorem execRangeClear_effect (r : Nat) (s : State) :
    HasEffect (.rangeClear r) s fun m => execRangeClear r (s.withLatchedMode m) := by
  refine hasEffect_withConfiguredRange fun R hR _ => ?_
  have hok (h : RangeOk s.stripLen R) : RangeOk s.stripLen (dropEffects R) := rangeOk_dropEffects h.1
  have hl (m : DbgMode) : (s.withLatchedMode m).stripLen = s.stripLen := rfl
  rcases e : ownsStrip s.stripLen R
  · simp only [hl, e, Bool.false_eq_true, if_false]
    exact hasEffect_setRange (.rangeClear r) _ hR hok
  · simp only [hl, e]
    exact ⟨_, _, .clear r R _ rfl hR hok, fun _ => rfl⟩

/-- The composed colours of a range are one for each of its pixels. -/
@[simp] theorem length_composeAll (R : RangeUnit) : (composeAll R).length = R.size.toNat := by simp [composeAll]

theorem execRangeUpdate_effect (r : Nat) (s : State) :
    HasEffect (.rangeUpdate r) s fun m => execRangeUpdate r (s.withLatchedMode m) := by
  refine hasEffect_withConfiguredRange fun R hR hz => ?_
  have hn (m : DbgMode) : (s.withLatchedMode m).nowMs = s.nowMs := rfl
  rcases e : rangeHasBeat s.nowMs R
  · simp only [hn, e, Bool.false_eq_true, if_false]
    exact hasEffect_setRange (.rangeUpdate r) _ hR (rangeOk_pollRange s.nowMs)
  · simp only [hn, e]
    have hok (h : RangeOk s.stripLen R) := rangeOk_advanceRange s.nowMs s.rng h hz
    have hlen : (composeAll (advanceRange s.nowMs R s.rng).1).length = R.size.toNat := length_composeAll _
    exact ⟨_, _, .update r R _ _ (advanceRange s.nowMs R s.rng).2 rfl hR hz hok hlen, fun _ => rfl⟩

/-- Registering a pattern touches no handshake signal. -/
theorem addPattern_handshake (p : Pattern) (S : SpcUnit) :
    (addPattern p S).showReq = S.showReq ∧ (addPattern p S).showAck = S.showAck := by
  unfold addPattern
  split <;> exact ⟨rfl, rfl⟩

/-- An SPC command that registers a pattern within its bounds. -/
theorem hasEffect_addPattern (i : Instr) {s : State} {S : SpcUnit} (p : Pattern) (hS : s.spc[i.unitNum]? = some S)
    (hp : i.wellFormed = true → PatternOk p) (hi : i.opc / 16 = 2 := by simp [Instr.opc]) :
    HasEffect i s fun m => .next ((s.withLatchedMode m).setSpc i.unitNum (addPattern p S)).finish :=
  hasEffect_setSpc i _ hS (fun hw h => spcOk_addPattern p h (hp hw)) (addPattern_handshake p S).1
    (addPattern_handshake p S).2 hi

/-- An operation that keeps each pattern in its bounds keeps the unit in its bounds, whatever the pixel. -/
theorem spcOk_mapFirst {S : SpcUnit} {f : Pattern → Pattern} (c : Color) (hf : ∀ p, PatternOk p → PatternOk (f p))
    (h : SpcOk S) : SpcOk { S with pat := mapFirst S.npat.val f S.pat, pixel := c } := by
  intro j hj
  have hj : j.val < S.npat.val := hj
  simp only [Fin.getElem_fin, getElem_mapFirst, hj, if_true]
  exact hf _ (h j hj)

theorem execSpcUpdate_effect (u : Nat) (s : State) :
    HasEffect (.spcUpdate u) s fun m => execSpcUpdate u (s.withLatchedMode m) := by
  refine hasEffect_withSpc fun S hS => ?_
  have hn (m : DbgMode) : (s.withLatchedMode m).nowMs = s.nowMs := rfl
  rcases e : spcHasBeat s.nowMs S
  · have hok : SpcOk S → SpcOk (pollSpc s.nowMs S) := spcOk_mapFirst S.pixel (patternOk_patPolled s.nowMs)
    simp only [hn, e, Bool.false_eq_true, if_false]
    exact hasEffect_setSpc (.spcUpdate u) _ hS (fun _ => hok) rfl rfl
  · simp only [hn, e]
    have hok := spcOk_mapFirst (S := S) (composeSpc (advanceSpc s.nowMs S)) fun p hp =>
      patternOk_patAdvance (patBeats s.nowMs p).toNat _ (patternOk_patPolled s.nowMs p hp)
    exact ⟨_, _, .spcUpdate u S _ rfl hS hok rfl rfl, fun _ => rfl⟩

/-- The pattern of a well-formed SPC_ADD_PWAVE with a legal half is in its bounds (44_single_pixel R557). -/
theorem patternOk_pwave {half : Nat} (now : Word) (h : legalHalf half = true) (hlt : half < 2 ^ 11) :
    PatternOk { kind := .pwave, colA := 0, colB := 0, half := BitVec.ofNat 11 half
                bk := bkReset now Config.pwaveTickMs, phase := 0 } := by
  have hne : half ≠ 0 := of_decide_eq_true h
  have e : (BitVec.ofNat 11 half).toNat = half := by rw [BitVec.toNat_ofNat, Nat.mod_eq_of_lt hlt]
  refine ⟨nofun, nofun, nofun, fun _ => ?_⟩
  simp only [e]
  exact ⟨by omega, show 0 < 2 * half by omega, rfl⟩

/-- Everything a command can do, in every latched mode. -/
theorem exec_effect (i : Instr) (s : State) : HasEffect i s fun m => exec i (s.withLatchedMode m) := by
  cases i with
  | nop => exact ⟨_, _, .nop rfl, fun _ => rfl⟩
  | bkReset g => exact hasEffect_withGbk fun _ => ⟨_, _, .gbk g (bkReset s.nowMs s.latch.a.a3) rfl, fun _ => rfl⟩
  | bkPoll g =>
    exact hasEffect_withGbk fun bk => ⟨_, _, .poll g (polled s.nowMs bk) (beats s.nowMs bk) rfl, fun _ => rfl⟩
  | blend =>
    exact hasEffect_withLegal (legal := legalGamma s.latch.a.a2) fun _ =>
      ⟨_, _, .result (blend s.latch.a.a0 s.latch.a.a1 s.latch.a.a2.toNat 0x10000) rfl, fun _ => rfl⟩
  | rangeCfg r => exact execRangeCfg_effect r s
  | rangeClear r => exact execRangeClear_effect r s
  | rangeAddSnake r d =>
    exact hasEffect_withConfiguredRange fun R hR hz => hasEffect_setRange (.rangeAddSnake r d)
      (addSnake (newSnake s.nowMs s.latch.a d R.size) R) hR fun h => rangeOk_addSnake _ _ _ h hz
  | rangeAddPulse r =>
    exact hasEffect_withConfiguredRange fun R hR _ => hasEffect_setRange (.rangeAddPulse r)
      (addPulse { color := s.latch.a.a0, bk := bkReset s.nowMs s.latch.a.a3, level := 0 } R) hR
      fun h => rangeOk_addPulse _ h
  | rangeAddRandom r c =>
    exact hasEffect_withConfiguredRange fun R hR hz => hasEffect_withLegal fun _ =>
      hasEffect_setRange (.rangeAddRandom r c) (addRandom (newRnd s.nowMs s.latch.a c) R) hR
        fun h => rangeOk_addRandom _ _ _ h hz
  | rangeUpdate r => exact execRangeUpdate_effect r s
  | spcClear u =>
    exact hasEffect_withSpc fun S hS => hasEffect_setSpc (.spcClear u) { S with npat := 0, pixel := black } hS
      (fun _ _ j hj => absurd hj (Nat.not_lt_zero _)) rfl rfl
  | spcAddSolid u =>
    exact hasEffect_withSpc fun S hS => hasEffect_addPattern (.spcAddSolid u)
      { kind := .solid, colA := s.latch.a.a0, colB := 0, half := 0, bk := bkReset s.nowMs 0, phase := 0 } hS
      fun _ => ⟨nofun, fun _ => rfl, nofun, nofun⟩
  | spcAddBlink u =>
    exact hasEffect_withSpc fun S hS => hasEffect_addPattern (.spcAddBlink u)
      { kind := .blink, colA := s.latch.a.a0, colB := s.latch.a.a1, half := 0
        bk := bkReset s.nowMs s.latch.a.a3, phase := 0 } hS
      fun _ => ⟨nofun, nofun, fun _ => by simp, nofun⟩
  | spcAddPwave u half =>
    exact hasEffect_withSpc fun S hS => hasEffect_withLegal fun hl => hasEffect_addPattern (.spcAddPwave u half)
      { kind := .pwave, colA := 0, colB := 0, half := BitVec.ofNat 11 half
        bk := bkReset s.nowMs Config.pwaveTickMs, phase := 0 } hS
      fun hw => patternOk_pwave s.nowMs hl (of_decide_eq_true (Bool.and_eq_true_iff.mp hw).2)
  | spcUpdate u => exact execSpcUpdate_effect u s

/-- No effect touches the latch. -/
theorem Effect.latch_eq {i : Instr} {s b : State} {e : Ending} (h : Effect i s e b) : b.latch = s.latch := by
  cases h <;> rfl

/-- How an ending can turn out: a flush either waits or, in mode dry-run, ends at once (10_state R123). -/
inductive Ends : Ending → State → State → Prop
  | done (b : State) : Ends .done b b.finish
  | dry (b : State) : Ends .flush b b.finish
  | flush (b : State) : Ends .flush b b.emitShow
  | spcDry (u : Nat) (S : SpcUnit) (b : State) : Ends (.spcFlush u S) b (b.setSpc u S).finish
  | spcFlush (u : Nat) (S : SpcUnit) (b : State) : Ends (.spcFlush u S) b (b.emitSpcShow u S)

theorem Ending.ends_apply (e : Ending) (b : State) : Ends e b (e.apply b) := by
  cases e with
  | done => exact .done b
  | flush =>
    simp only [Ending.apply, State.showUnlessDryRun]
    split
    · exact .dry b
    · exact .flush b
  | spcFlush u S =>
    simp only [Ending.apply, State.spcShowUnlessDryRun]
    split
    · exact .spcDry u S b
    · exact .spcFlush u S b

/-- Everything a command can do from a state. -/
theorem exec_cases {i : Instr} {s t : State} (h : exec i s = .next t) : ∃ e b, Effect i s e b ∧ Ends e b t := by
  obtain ⟨e, b, hb, hrun⟩ := exec_effect i s
  have hself : b.withLatchedMode s.latch.mode = b := by rw [← hb.latch_eq]; rfl
  have hs : exec i s = .next (e.apply b) := hself ▸ hrun s.latch.mode
  obtain rfl : t = e.apply b := Host.Outcome.next.inj (h.symm.trans hs)
  exact ⟨e, b, hb, e.ends_apply b⟩

/-- A command always answers a next state: the BKC "never traps, vectors or stops" (60_exceptions). -/
theorem exec_answers (i : Instr) (s : State) : ∃ t, exec i s = .next t := by
  obtain ⟨e, b, _, hrun⟩ := exec_effect i s
  exact ⟨_, hrun s.latch.mode⟩

/-- Replacing a unit by one that looks the same to `f` changes nothing that `f` shows. -/
theorem map_set_of_same {α β : Type} {f : α → β} {l : List α} {n : Nat} {x : α} (y : α) (hx : l[n]? = some x)
    (h : f y = f x) : (l.set n y).map f = l.map f := by
  obtain ⟨hn, rfl⟩ := List.getElem?_eq_some_iff.mp hx
  rw [List.map_set, h, ← List.getElem_map f (h := by simpa using hn), List.set_getElem_self]

/-- Settles O8: a command ends idle, or an update in its own flush wait, whatever its operands. -/
theorem everyValidCommandCompletes : Obligations.EveryValidCommandCompletes := by
  unfold Obligations.EveryValidCommandCompletes
  intro i s _ _
  obtain ⟨t, ht⟩ := exec_answers i s
  refine ⟨t, ht, ?_⟩
  obtain ⟨e, b, hb, he⟩ := exec_cases ht
  cases he with
  | done | dry | spcDry => exact .inl rfl
  | flush =>
    cases hb with | update r R R' cs o hi => exact .inr (.inl ⟨by rw [hi]; rfl, rfl, rfl⟩)
  | spcFlush =>
    cases hb with | spcUpdate u S S' hi => exact .inr (.inr ⟨by rw [hi]; rfl, by rw [hi]; rfl⟩)

/-- No effect changes a parameter: a unit is replaced, never added (00_scope R10). -/
theorem Effect.params_eq {i : Instr} {s b : State} {e : Ending} (h : Effect i s e b) : b.params = s.params := by
  cases h <;> simp [State.params, State.numRanges, State.numSpc, State.numGbk]

theorem Ends.params_eq {e : Ending} {b t : State} (h : Ends e b t) : t.params = b.params := by
  cases h <;> simp [State.params, State.numRanges, State.numSpc, State.numGbk]

/-- Settles O40, by the effects of a command and the ways they end. -/
theorem commandsLeaveRegistersAlone : Obligations.CommandsLeaveRegistersAlone := by
  unfold Obligations.CommandsLeaveRegistersAlone
  intro i s t h
  obtain ⟨e, b, hb, he⟩ := exec_cases h
  rw [he.params_eq.trans hb.params_eq]
  cases hb with
  | update r R R' cs o hi => cases he <;> simp [hi, Instr.unitNum]
  | spcUpdate u S S' hi hS _ _ ha =>
    have hm (S'' : SpcUnit) (h : S''.showAck = S.showAck) := map_set_of_same (f := SpcUnit.showAck) S'' hS h
    cases he <;> simp [hi, hm, ha, Instr.unitNum]
  | spc S S' hi hS _ _ ha =>
    have hm := map_set_of_same (f := SpcUnit.showAck) S' hS ha
    cases he
    simp [hm]
  | result v hi => cases he; simp [hi]
  | poll g bk v hi => cases he; simp [hi, Instr.unitNum]
  | _ => cases he; simp

/-- Settles O41, by the effects of a command: each replaces at most the unit it names. -/
theorem commandsTouchOnlyTheNamedUnit : Obligations.CommandsTouchOnlyTheNamedUnit := by
  unfold Obligations.CommandsTouchOnlyTheNamedUnit
  intro i s t h
  obtain ⟨e, b, hb, he⟩ := exec_cases h
  have hset {α : Type} (l : List α) (u n : Nat) (x : α) (hn : n ≠ u) : (l.set u x)[n]? = l[n]? :=
    List.getElem?_set_ne (Ne.symm hn)
  cases hb with
  | error | nop | result => cases he; simp
  | gbk g bk hi | poll g bk v hi => cases he; simp +contextual [hi, Instr.unitNum, Instr.opc, hset]
  | range R R' hi | spc S S' hi => cases he; simp +contextual [hi, hset]
  | clear r R R' hi => cases he; simp +contextual [hi, Instr.unitNum, Instr.opc, hset]
  | update r R R' cs o hi => cases he <;> simp +contextual [hi, Instr.unitNum, Instr.opc, hset]
  | spcUpdate u S S' hi => cases he <;> simp +contextual [hi, Instr.unitNum, Instr.opc, hset]

/-- No ending writes the frame. -/
theorem Ends.mem_eq {e : Ending} {b t : State} (h : Ends e b t) : t.mem = b.mem := by
  cases h <;> rfl

/-- Settles O42: only two effects write the frame, each a run of pixels. -/
theorem commandsLeaveTheFrameAlone : Obligations.CommandsLeaveTheFrameAlone := by
  unfold Obligations.CommandsLeaveTheFrameAlone
  intro i s t h hw
  obtain ⟨e, b, hb, he⟩ := exec_cases h
  rw [he.mem_eq]
  cases hb with
  | clear r R R' hi =>
    subst hi
    refine ⟨fun h => absurd rfl h, fun _ a ha => ?_, nofun⟩
    exact get_writePixels_outside _ _ _ _ hw (by simpa using ha)
  | update r R R' cs o hi hR _ _ hlen =>
    subst hi
    refine ⟨fun _ h => absurd rfl h, nofun, fun _ R₁ hR₁ a ha => ?_⟩
    obtain rfl : R = R₁ := Option.some.inj (hR.symm.trans hR₁)
    exact get_writePixels_outside _ _ _ _ hw (hlen ▸ ha)
  | _ => exact ⟨fun _ _ _ => rfl, fun _ _ _ => rfl, fun _ _ _ _ _ => rfl⟩

/-- The modes off and verbose end a command alike (10_state R123). -/
theorem Ending.apply_verbose (e : Ending) (b : State) :
    e.apply (b.withLatchedMode .verbose) = (e.apply (b.withLatchedMode .off)).withLatchedMode .verbose := by
  cases e <;> rfl

/-- No effect raises a request or counts a flush, nor does a dry run raise the request of an SPC unit (10_state R123). -/
theorem Effect.flush_eq {i : Instr} {s b : State} {e : Ending} (h : Effect i s e b) :
    b.showReq = s.showReq ∧ b.flushCnt = s.flushCnt ∧ b.spcFlushCnt = s.spcFlushCnt ∧
      (e.apply (b.withLatchedMode .dryRun)).spc.map SpcUnit.showReq = s.spc.map SpcUnit.showReq := by
  cases h with
  | spc S S' _ hS _ hq => exact ⟨rfl, rfl, rfl, map_set_of_same S' hS hq⟩
  | spcUpdate u S S' _ hS _ hq => exact ⟨rfl, rfl, rfl, map_set_of_same S' hS hq⟩
  | _ => exact ⟨rfl, rfl, rfl, rfl⟩

/-- A dry run ends idle, with the flush requests and counts it started from (10_state R123). -/
theorem Ending.apply_dryRun (e : Ending) (b : State) :
    (e.apply (b.withLatchedMode .dryRun)).phase = .idle ∧ (e.apply (b.withLatchedMode .dryRun)).showReq = b.showReq ∧
      (e.apply (b.withLatchedMode .dryRun)).flushCnt = b.flushCnt ∧
      (e.apply (b.withLatchedMode .dryRun)).spcFlushCnt = b.spcFlushCnt := by
  cases e <;> exact ⟨rfl, rfl, rfl, rfl⟩

/-- Apart from the flush, a dry run leaves what the mode off leaves (10_state R123). -/
theorem Ending.withoutFlush_dryRun (e : Ending) (b : State) :
    (e.apply (b.withLatchedMode .dryRun)).withoutFlush = (e.apply (b.withLatchedMode .off)).withoutFlush := by
  cases e with
  | done | flush => rfl
  | spcFlush u S =>
    show ({ b with spc := b.spc.set u S } : State).withoutFlush =
      ({ b with spc := b.spc.set u { S with showReq := true } } : State).withoutFlush
    simp [State.withoutFlush, List.map_set]

/-- Settles O34: the effect is the same in every mode, and only the ending looks at it. -/
theorem dryRunOnlySuppressesFlush : Obligations.DryRunOnlySuppressesFlush := by
  unfold Obligations.DryRunOnlySuppressesFlush
  intro i s t h
  obtain ⟨e, b, hb, hrun⟩ := exec_effect i s
  obtain rfl : t = e.apply (b.withLatchedMode .off) := Host.Outcome.next.inj (h.symm.trans (hrun .off))
  obtain ⟨hreq, hcnt, hspcCnt, hspcReq⟩ := hb.flush_eq
  obtain ⟨hidle, hreq', hcnt', hspcCnt'⟩ := e.apply_dryRun b
  refine ⟨(hrun .verbose).trans (congrArg _ (e.apply_verbose b)), _, hrun .dryRun, e.withoutFlush_dryRun b, hidle, ?_⟩
  exact ⟨hreq'.trans hreq, hcnt'.trans hcnt, hspcCnt'.trans hspcCnt, hspcReq⟩

/-- In phase EXEC the Engine's turn is the EXEC step of the command it has latched (10_state R113). -/
theorem engineTurn_of_command {s : State} {i : Instr} (hr : s.rstN = true) (hp : s.phase = .exec)
    (hd : decode s.latch.word = .command i) : engineTurn s = exec i s := by
  simp [engineTurn, execLatched, hr, hp, hd]

/-- Settles O4: with or without the move that gives it, the Engine has its turn. -/
theorem stepRunsDecodedCommand : Obligations.StepRunsDecodedCommand := by
  unfold Obligations.StepRunsDecodedCommand
  intro s i ms hr hp hd
  exact ⟨fun ha => (step_of_agenda_nil s ha).trans (engineTurn_of_command hr hp hd),
    fun ha => (step_of_agenda_cons s _ ms ha).trans (engineTurn_of_command (s := { s with agenda := ms }) hr hp hd)⟩

end Sys2Proof.Machine

end

/-! ## The invariant -/

section

namespace Sys2Proof.Machine

open Sys2Proof

/-- An update of the inputs and of the model's own fields keeps the invariant, under reset too (log 4, 5, 6, 9, 24). -/
theorem inv_inputs {s : State} (hi : Inv s) (now : Word) (ack : Bool) (idx : Half) (o : Oracle) (cs : List Color)
    (d : Word) (n : Nat) (ms : List Move) :
    Inv { s with nowMs := now, showAck := ack, devIdx := idx, rng := o, scanned := cs, rdata := d, freeReads := n
                 agenda := ms } := by
  refine ⟨hi.params, hi.ranges, hi.spc, hi.frame, hi.handshake, hi.phase, hi.errors, fun hr => ?_⟩
  calc { s with nowMs := now, showAck := ack, devIdx := idx, rng := o, scanned := cs, rdata := d, freeReads := n
                agenda := ms }
      = { s.heldInReset with nowMs := now, showAck := ack, devIdx := idx, rng := o, scanned := cs, rdata := d
                             freeReads := n, agenda := ms } := by rw [← hi.held hr]
    _ = _ := rfl

/-- Apart from the clause about what `rst_n` low holds, the invariant does not look at `rst_n`. -/
theorem inv_of_released {s : State} (hi : Inv { s with rstN := true }) (hr : s.rstN = false → s = s.heldInReset) :
    Inv s :=
  ⟨hi.params, hi.ranges, hi.spc, hi.frame, hi.handshake, hi.phase, hi.errors, hr⟩

theorem inv_releaseReset {s : State} (hi : Inv s) : Inv { s with rstN := true } :=
  ⟨hi.params, hi.ranges, hi.spc, hi.frame, hi.handshake, hi.phase, hi.errors, nofun⟩

/-! ### Reset values -/

/-- A range after reset is in its bounds: range 0 is the whole strip, the others are unconfigured (10_state R175). -/
theorem rangeOk_resetRanges {p : Config.Params} (hp : p.legal) : ∀ R ∈ resetRanges p, RangeOk p.stripLen R := by
  obtain ⟨⟨_, hL⟩, _⟩ := hp
  have hempty (sz : Half) (h : sz = 0 ∨ sz.toNat ≤ p.stripLen) : RangeOk p.stripLen (.empty 0 sz) :=
    rangeOk_dropEffects (R := .empty 0 sz) (h.imp id fun h => by simpa [RangeUnit.empty] using h)
  intro R hR
  unfold resetRanges at hR
  split at hR
  · cases hR
  · rcases List.mem_cons.mp hR with rfl | hR
    · refine hempty _ (.inr ?_)
      rw [BitVec.toNat_ofNat]
      exact Nat.mod_le _ _
    · rw [List.eq_of_mem_replicate hR]
      exact hempty 0 (.inl rfl)

/-- The invariant of a state whose pieces of state stand at their reset values, whatever its inputs (10_state R175). -/
theorem inv_of_resetValues {s : State} (hp : s.params.legal) (hranges : s.ranges = resetRanges s.params)
    (hspc : ∀ S ∈ s.spc, ∃ ack, S = .empty ack) (hmem : s.mem = []) (hreq : s.showReq = false) (hphase : s.phase = .idle)
    (herrs : s.errs = 0) (hcode : s.errCode = 0) (hheld : s.rstN = false → s = s.heldInReset) : Inv s := by
  refine ⟨hp, hranges ▸ rangeOk_resetRanges hp, ?_, by simp [FrameOk, hmem], ⟨by simp [hreq, hphase], ?_⟩,
    by simp [phaseOk, hphase], by simp [ErrorsOk, herrs, hcode], hheld⟩
  · intro S hS j hj
    obtain ⟨ack, rfl⟩ := hspc S hS
    exact absurd hj (Nat.not_lt_zero _)
  · intro u hu
    obtain ⟨ack, h⟩ := hspc _ (List.getElem_mem hu)
    simp [h, SpcUnit.empty, hphase]

@[simp] theorem length_resetRanges (p : Config.Params) : (resetRanges p).length = p.numRanges := by
  unfold resetRanges
  split <;> simp_all

/-- The state right after reset has the parameters it was built for (00_scope R10). -/
@[simp] theorem params_resetWith (p : Config.Params) : (State.resetWith p).params = p := by
  simp [State.params, State.resetWith, State.numRanges, State.numSpc, State.numGbk]

theorem inv_resetWith {p : Config.Params} (hp : p.legal) : Inv (State.resetWith p) := by
  have h : (State.resetWith p).params = p := params_resetWith p
  exact inv_of_resetValues (h.symm ▸ hp) (by rw [h]; rfl) (fun S hS => ⟨false, List.eq_of_mem_replicate hS⟩) rfl rfl rfl
    rfl rfl nofun

/-- Settles O59: the reset values of every legal instance, and those of the vectors' instance among them. -/
theorem invariantHoldsAtReset : Obligations.InvariantHoldsAtReset := by
  unfold Obligations.InvariantHoldsAtReset
  exact ⟨fun p hp => inv_resetWith hp, inv_resetWith (by decide)⟩

/-- The empty frame store is the black frame (10_state R175). -/
theorem readPixel_nil (i : Nat) : readPixel [] i = 0 := by
  simp only [readPixel, Memory.get_nil]
  decide

/-- Settles O56: range 0 is the whole strip, and every other unit is a copy of one value. -/
theorem resetValues : Obligations.ResetValues := by
  unfold Obligations.ResetValues
  intro p hp
  obtain ⟨⟨_, hL⟩, ⟨hN, _⟩, _⟩ := hp
  obtain ⟨n, hn⟩ : ∃ n, p.numRanges = n + 1 := ⟨p.numRanges - 1, by omega⟩
  have hranges : (State.resetWith p).ranges = .empty 0 (BitVec.ofNat 16 p.stripLen) :: List.replicate n (.empty 0 0) := by
    simp [State.resetWith, resetRanges, hn]
  refine ⟨params_resetWith p, rfl, rfl, rfl, rfl, rfl, rfl, rfl, rfl, rfl, rfl, rfl, rfl, ?_, ?_, ?_, ?_, ?_, readPixel_nil⟩
  · intro g hg
    simp [State.resetWith, hg, BeatKeeper.zero]
  · refine ⟨.empty 0 (BitVec.ofNat 16 p.stripLen), by rw [hranges]; rfl, rfl, ?_⟩
    exact (BitVec.toNat_ofNat _ _).trans (Nat.mod_eq_of_lt (by omega))
  · intro r h0 hr
    obtain ⟨k, rfl⟩ : ∃ k, r = k + 1 := ⟨r - 1, by omega⟩
    refine ⟨.empty 0 0, ?_, rfl, rfl⟩
    rw [hranges, List.getElem?_cons_succ, List.getElem?_replicate, if_pos (by omega)]
  · intro R hR
    rw [hranges] at hR
    rcases List.mem_cons.mp hR with rfl | hR
    · exact ⟨rfl, rfl, rfl, rfl⟩
    · rw [List.eq_of_mem_replicate hR]
      exact ⟨rfl, rfl, rfl, rfl⟩
  · intro u hu
    refine ⟨.empty false, by simp [State.resetWith, hu], rfl, rfl, rfl, fun j => ?_⟩
    simp [SpcUnit.empty, Pattern.zero, BeatKeeper.zero]

/-- Asserting reset twice is asserting it once (70_reset R800). -/
theorem heldInReset_idem (s : State) : s.heldInReset.heldInReset = s.heldInReset := by
  have hspc : s.heldInReset.spc.map (fun S => SpcUnit.empty S.showAck) = s.heldInReset.spc := by
    simp [State.heldInReset, SpcUnit.empty]
  rw [State.heldInReset.eq_def s.heldInReset, params_heldInReset, hspc]
  rfl

/-- Of a unit replaced before reset only the acknowledge level is seen after it (70_reset R803). -/
theorem heldInReset_setSpc (s : State) (u : Nat) (S : SpcUnit) :
    (s.setSpc u S).heldInReset = s.heldInReset.setSpc u (.empty S.showAck) := by
  have hp : (s.setSpc u S).params = s.params := by simp [State.params, State.numRanges, State.numSpc, State.numGbk]
  unfold State.heldInReset
  rw [hp, State.setSpc_spc, List.map_set]
  rfl

theorem inv_heldInReset {s : State} (hp : s.params.legal) : Inv s.heldInReset := by
  have h : s.heldInReset.params = s.params := params_heldInReset s
  refine inv_of_resetValues (h.symm ▸ hp) (by rw [h]; rfl) (fun S hS => ?_) rfl rfl rfl rfl rfl
    fun _ => (heldInReset_idem s).symm
  obtain ⟨S', _, rfl⟩ := List.mem_map.mp hS
  exact ⟨S'.showAck, rfl⟩

/-! ### The Engine -/

/-- What an effect keeps of the invariant, in phase EXEC (10_state R113). -/
theorem inv_of_effect {i : Instr} {s b : State} {e : Ending} (hw : i.wellFormed = true) (h : Effect i s e b) (hi : Inv s)
    (hr : s.rstN = true) : Inv b := by
  cases h with
  | error e => exact inv_recordError e _ hi hr
  | nop => exact hi
  | spcUpdate => exact hi
  | result v => exact inv_of_same hi hr rfl rfl rfl rfl rfl rfl hi.errors
  | gbk g bk => exact inv_setGbk g bk hi hr
  | poll g bk v => exact inv_of_same (inv_setGbk g bk hi hr) hr rfl rfl rfl rfl rfl rfl hi.errors
  | range R R' _ hR hok => exact inv_setRange _ R' hi hr (hok (hi.ranges R (List.mem_of_getElem? hR)))
  | clear r R R' _ hR hok =>
    have hs := inv_setRange r R' hi hr (hok (hi.ranges R (List.mem_of_getElem? hR)))
    exact inv_writeFrame _ _ hs hr (by simp)
  | update r R R' cs o _ hR hz hok hlen =>
    have hR := hi.ranges R (List.mem_of_getElem? hR)
    have hs := inv_setRange r R' hi hr (hok hR)
    have hin : R.offset.toNat + cs.length ≤ s.stripLen := hlen ▸ hR.1.resolve_left hz
    exact inv_of_same (inv_writeFrame _ cs hs hr hin) hr rfl rfl rfl rfl rfl rfl hi.errors
  | spc S S' _ hS hok hq => exact inv_setSpc _ S S' hi hr hS (hok hw (hi.spc S (List.mem_of_getElem? hS))) hq

/-- No effect moves the phase or `rst_n`: the ending does the one, the host's reset the other (10_state R113). -/
theorem Effect.phase_rstN_eq {i : Instr} {s b : State} {e : Ending} (h : Effect i s e b) :
    b.phase = s.phase ∧ b.rstN = s.rstN := by
  cases h <;> exact ⟨rfl, rfl⟩

/-- The EXEC step of a command that a word spells keeps the invariant (10_state R113). -/
theorem inv_exec {i : Instr} {s t : State} (hw : i.wellFormed = true) (h : exec i s = .next t) (hi : Inv s)
    (hp : s.phase = .exec) (hr : s.rstN = true) : Inv t := by
  obtain ⟨e, b, hb, he⟩ := exec_cases h
  obtain ⟨hbp, hbr⟩ := hb.phase_rstN_eq
  have hbi := inv_of_effect hw hb hi hr
  rw [hp] at hbp
  rw [hr] at hbr
  cases he with
  | done | dry => exact inv_finish hbi hbp hbr
  | flush => exact inv_emitShow hbi hbp hbr
  | spcDry u S' =>
    cases hb with
    | spcUpdate u S S' _ hS hok hq =>
      exact inv_finish (inv_setSpc u S S' hi hr hS (hok (hi.spc S (List.mem_of_getElem? hS))) hq) hp hr
  | spcFlush u S' =>
    cases hb with
    | spcUpdate u S S' _ hS hok => exact inv_emitSpcShow u S S' hi hp hr hS (hok (hi.spc S (List.mem_of_getElem? hS)))

/-- A command that a word decodes to is well-formed: every operand comes out of its field (30_encoding R301-R306). -/
theorem wellFormed_of_decode {w : Word} {i : Instr} (h : decode w = .command i) : i.wellFormed = true := by
  have hf (hi lo : Nat) : field hi lo w < 2 ^ (hi - lo + 1) := Nat.mod_lt _ (Nat.two_pow_pos _)
  have hu : unitField w < 16 := hf 23 20
  have hc : field 3 0 w < 16 := hf 3 0
  have hh : field 10 0 w < 2048 := hf 10 0
  unfold decode decodeZ decodeU decodeS decodeR decodeW at h
  (repeat' split at h) <;> cases h <;> simp [Instr.wellFormed, hu, hc, hh]

/-- An undefined or malformed word ends the command with an error, which keeps the invariant (60_exceptions R710). -/
theorem inv_engineError {s : State} (e : ErrCode) (hi : Inv s) (hp : s.phase = .exec) (hr : s.rstN = true) :
    Inv (s.engineError e) :=
  inv_finish (inv_recordError e _ hi hr) hp hr

theorem inv_execLatched {s t : State} (h : execLatched s = .next t) (hi : Inv s) (hp : s.phase = .exec)
    (hr : s.rstN = true) : Inv t := by
  unfold execLatched at h
  split at h
  · rename_i i hd
    exact inv_exec (wellFormed_of_decode hd) h hi hp hr
  · exact Host.Outcome.next.inj h ▸ inv_engineError .opc hi hp hr
  · exact Host.Outcome.next.inj h ▸ inv_engineError .rsv hi hp hr

/-- The end of a strip flush drops the one request that is up (70_reset R811). -/
theorem inv_endShow {s : State} (hi : Inv s) (hp : s.phase = .waitShow) (hr : s.rstN = true) : Inv s.endShow := by
  refine ⟨hi.params, hi.ranges, hi.spc, hi.frame, ⟨by simp, fun u hu => ?_⟩, rfl, hi.errors, by simp [hr]⟩
  have hu : u < s.spc.length := hu
  have h := hi.handshake.2 u hu
  simpa [hp] using h

/-- The end of an SPC flush drops the one request that is up (70_reset R811). -/
theorem inv_endSpcShow {s : State} {u : Nat} {S : SpcUnit} (hi : Inv s) (hp : s.phase = .waitSpc u) (hr : s.rstN = true)
    (hS : s.spc[u]? = some S) : Inv (s.endSpcShow u S) := by
  have hq := hi.handshake.1
  refine ⟨?_, hi.ranges, ?_, hi.frame, ⟨by simpa [hp] using hq, fun v hv => ?_⟩, rfl, hi.errors, by simp [hr]⟩
  · simpa [State.params, State.numRanges, State.numSpc, State.numGbk] using hi.params
  · intro S' hS'
    rcases List.mem_or_eq_of_mem_set hS' with h | rfl
    · exact hi.spc S' h
    · exact hi.spc S (List.mem_of_getElem? hS)
  · have hv' : v < s.spc.length := by simpa using hv
    have h := hi.handshake.2 v hv'
    simp only [State.endSpcShow_spc, List.getElem_set, State.endSpcShow_phase]
    split
    · simp
    · rename_i hne
      simpa [hp, hne] using h

theorem inv_engineTurn {s t : State} (h : engineTurn s = .next t) (hi : Inv s) : Inv t := by
  unfold engineTurn at h
  split at h
  · exact Host.Outcome.next.inj h ▸ hi
  rename_i hr
  have hr : s.rstN = true := by simpa using hr
  split at h
  · exact Host.Outcome.next.inj h ▸ hi
  · rename_i hp
    exact inv_execLatched h hi hp hr
  · rename_i hp
    obtain rfl := Host.Outcome.next.inj h
    split
    · exact inv_endShow hi hp hr
    · exact hi
  · rename_i u hp
    obtain rfl := Host.Outcome.next.inj h
    unfold endSpcWait
    split
    · rename_i S hS
      split
      · exact inv_endSpcShow hi hp hr hS
      · exact hi
    · exact hi

/-! ### The host and the devices -/

/-- A register write keeps the invariant: only `CTRL`, `STATUS`, `CMD` and `ARGk` are written (45_system R610). -/
theorem inv_writeReg {s : State} (v : Word) (reg : Reg) (hi : Inv s) (hr : s.rstN = true) : Inv (writeReg v s reg) := by
  cases reg with
  | ctrl =>
    simp only [writeReg, writeCtrl]
    split
    · exact inv_of_same hi hr rfl rfl rfl rfl rfl rfl hi.errors
    · exact inv_recordError .arg v hi hr
  | status =>
    refine inv_of_same hi hr rfl rfl rfl rfl rfl rfl ⟨hi.errors.1, fun hc => ?_⟩
    have he : s.errs = 0 := hi.errors.2 hc
    simp [writeReg, he]
  | cmd =>
    simp only [writeReg, writeCmd]
    split
    · exact inv_recordError .busy v hi hr
    · rename_i hb
      exact inv_acceptCommand v hi (by simpa [State.busy] using hb) hr
  | arg k =>
    simp only [writeReg, writeArg]
    split <;> exact inv_of_same hi hr rfl rfl rfl rfl rfl rfl hi.errors
  | _ => exact hi

theorem inv_hostWrite {s t : State} {off : Nat} {size : AccSize} {v : Word} (h : hostWrite off size v s = .next t)
    (hi : Inv s) : Inv t := by
  unfold hostWrite at h
  split at h
  · cases h
  split at h
  · exact Host.Outcome.next.inj h ▸ hi
  rename_i hr
  have hr : s.rstN = true := by simpa using hr
  split at h <;> obtain rfl := Host.Outcome.next.inj h
  · exact inv_writeReg v _ hi hr
  · exact inv_recordError .acc _ hi hr

theorem inv_hostRead {s t : State} {off : Nat} {size : AccSize} (h : hostRead off size s = .next t) (hi : Inv s) :
    Inv t := by
  have hread {s : State} (hi : Inv s) (d : Word) (n : Nat) : Inv { s with rdata := d, freeReads := n } :=
    inv_inputs hi s.nowMs s.showAck s.devIdx s.rng s.scanned d n s.agenda
  unfold hostRead at h
  split at h
  · cases h
  split at h
  · exact Host.Outcome.next.inj h ▸ hread hi 0 s.freeReads
  rename_i hr
  have hr : s.rstN = true := by simpa using hr
  split at h <;> obtain rfl := Host.Outcome.next.inj h
  · obtain ⟨d, n, e⟩ := readReg_eq s (regOf off)
    exact e ▸ hread hi d n
  · exact hread (inv_recordError .acc _ hi hr) 0 s.freeReads

/-- An acknowledge level is an input of its unit, under reset too (10_state R105). -/
theorem inv_driveSpcAck {s t : State} {u : Nat} {level : Bool} (h : driveSpcAck u level s = .next t) (hi : Inv s) :
    Inv t := by
  unfold driveSpcAck at h
  split at h
  · rename_i S hS
    obtain rfl := Host.Outcome.next.inj h
    have hok : SpcOk { S with showAck := level } := hi.spc S (List.mem_of_getElem? hS)
    refine inv_of_released (inv_setSpc u S _ (inv_releaseReset hi) rfl hS hok rfl) fun (hr : s.rstN = false) => ?_
    have hS' : s.heldInReset.spc[u]? = some S := hi.held hr ▸ hS
    obtain ⟨S₀, _, rfl⟩ : ∃ S₀, s.spc[u]? = some S₀ ∧ SpcUnit.empty S₀.showAck = S := by
      simpa [State.heldInReset] using hS'
    rw [heldInReset_setSpc, ← hi.held hr]
    rfl
  · cases h

/-- Every move of every agent keeps the invariant (10_state R100). -/
theorem inv_applyMove {m : Move} {s t : State} (h : applyMove m s = .next t) (hi : Inv s) : Inv t := by
  cases m with
  | engine => exact inv_engineTurn h hi
  | scan reads =>
    obtain ⟨t', ht', rfl⟩ := engineTurnScanned_next reads s t h
    exact inv_scanned _ _ (inv_engineTurn ht' hi)
  | write off size v => exact inv_hostWrite h hi
  | read off size => exact inv_hostRead h hi
  | spcAck u level => exact inv_driveSpcAck h hi
  | assertReset => exact Host.Outcome.next.inj h ▸ inv_heldInReset hi.params
  | releaseReset => exact Host.Outcome.next.inj h ▸ inv_releaseReset hi
  | clock now =>
    exact Host.Outcome.next.inj h ▸ inv_inputs hi now s.showAck s.devIdx s.rng s.scanned s.rdata s.freeReads s.agenda
  | draw a =>
    exact Host.Outcome.next.inj h ▸
      inv_inputs hi s.nowMs s.showAck s.devIdx _ s.scanned s.rdata s.freeReads s.agenda
  | stripAck level =>
    exact Host.Outcome.next.inj h ▸ inv_inputs hi s.nowMs level s.devIdx s.rng s.scanned s.rdata s.freeReads s.agenda
  | devIdx i =>
    exact Host.Outcome.next.inj h ▸ inv_inputs hi s.nowMs s.showAck i s.rng s.scanned s.rdata s.freeReads s.agenda

/-- Settles O60, by the agents whose turn it is. -/
theorem stepKeepsInvariant : Obligations.StepKeepsInvariant := by
  unfold Obligations.StepKeepsInvariant
  intro s t hi h
  rcases ha : s.agenda with _ | ⟨m, ms⟩
  · rw [step_of_agenda_nil s ha] at h
    exact inv_engineTurn h hi
  · rw [step_of_agenda_cons s m ms ha] at h
    exact inv_applyMove h (inv_inputs hi s.nowMs s.showAck s.devIdx s.rng s.scanned s.rdata s.freeReads ms)

end Sys2Proof.Machine

end

/-! ## The host's reads and writes, register by register -/

section

namespace Sys2Proof.Machine

open Sys2Proof

/-! ### Which register stands at an offset -/

/-- The register `reg` stands at the word offset `off` of the aperture (20_memory R200, R201, R202). -/
def StandsAt (off : Nat) (reg : Reg) : Prop := off < 0x50000 ∧ off % 4 = 0 ∧ regOf off = reg

theorem standsAt_arg (k : Fin 4) : StandsAt (0x014 + 4 * k.val) (.arg k) := ⟨by omega, by omega, regOf_arg k⟩

theorem standsAt_gbk {g w : Nat} (hg : g < 8) (hw : w < 4) : StandsAt (0x040 + 16 * g + 4 * w) (.gbk g w) :=
  ⟨by omega, by omega, regOf_gbk g w hg hw⟩

theorem standsAt_range {r w : Nat} (hr : r < 8) (hw : w < 16) : StandsAt (0x100 + 64 * r + 4 * w) (.range r w) :=
  ⟨by omega, by omega, regOf_range r w hr hw⟩

theorem standsAt_spc {u w : Nat} (hu : u < 8) (hw : w < 8) : StandsAt (0x300 + 32 * u + 4 * w) (.spc u w) :=
  ⟨by omega, by omega, regOf_spc u w hu hw⟩

theorem standsAt_frame {i : Nat} (hi : i < 65536) : StandsAt (0x10000 + 4 * i) (.frame i) :=
  ⟨by omega, by omega, regOf_frame i hi⟩

theorem standsAt_unmapped {off : Nat} (h4 : off % 4 = 0)
    (h : (0x0C0 ≤ off ∧ off < 0x100) ∨ (0x400 ≤ off ∧ off < 0x10000)) : StandsAt off .unmapped :=
  ⟨by omega, h4, regOf_unmapped off h⟩

/-! ### One read or write as a step -/

section

variable {s : State} {ms : List Move} {off : Nat} {reg : Reg}

theorem step_read (hr : s.rstN = true) (ho : StandsAt off reg) (ha : s.agenda = .read off .b4 :: ms) :
    step s = .next (readReg { s with agenda := ms } reg) := by
  obtain ⟨hlt, h4, rfl⟩ := ho
  rw [step_of_agenda_cons _ _ _ ha]
  show hostRead off .b4 _ = _
  rw [hostRead_eq _ _ _ hlt, if_neg (by simp [hr]), if_pos ⟨rfl, h4⟩]

theorem step_write (v : Word) (hr : s.rstN = true) (ho : StandsAt off reg) (ha : s.agenda = .write off .b4 v :: ms) :
    step s = .next (writeReg v { s with agenda := ms } reg) := by
  obtain ⟨hlt, h4, rfl⟩ := ho
  rw [step_of_agenda_cons _ _ _ ha]
  show hostWrite off .b4 v _ = _
  rw [hostWrite_eq _ _ _ _ hlt, if_neg (by simp [hr]), if_pos ⟨rfl, h4⟩]

/-- A read is exact while the Engine is idle, and at all times of a register the Engine does not write (20_memory R208). -/
theorem readReg_exact (hx : s.phase = .idle ∨ engineWritten s reg = false) :
    readReg s reg = { s with rdata := regValue s reg } := by
  rcases hx with hx | hx
  · exact readReg_of_idle s reg hx
  · simp [readReg, hx]

/-- A read of a register the Engine writes has a free value while a command runs (20_memory R208). -/
theorem readReg_free (hb : s.phase ≠ .idle) (he : engineWritten s reg = true) :
    readReg s reg = { s with rdata := Config.freeRead s.freeReads, freeReads := s.freeReads + 1 } := by
  simp [readReg, State.busy, hb, he]

theorem step_read_exact (hr : s.rstN = true) (ho : StandsAt off reg) (hx : s.phase = .idle ∨ engineWritten s reg = false)
    (ha : s.agenda = .read off .b4 :: ms) : step s = .next { s with agenda := ms, rdata := regValue s reg } :=
  (step_read hr ho ha).trans (congrArg _ (readReg_exact (s := { s with agenda := ms }) hx))

theorem readsAs_of_exact {v : Nat} (hr : s.rstN = true) (ho : StandsAt off reg)
    (hx : s.phase = .idle ∨ engineWritten s reg = false) (hv : regValue s reg = BitVec.ofNat 32 v) : ReadsAs s ms off v :=
  fun ha => hv ▸ step_read_exact hr ho hx ha

theorem readsFree_of_engineWritten (hr : s.rstN = true) (ho : StandsAt off reg) (hb : s.phase ≠ .idle)
    (he : engineWritten s reg = true) : ReadsFree s ms off :=
  fun ha => (step_read hr ho ha).trans (congrArg _ (readReg_free (s := { s with agenda := ms }) hb he))

end

/-! ### Register values as numbers -/

/-- The fields of a word add up: the upper field stands `n` bits above the lower one (00_scope R20). -/
theorem toNat_append_add {m n : Nat} (x : BitVec m) (y : BitVec n) : (x ++ y).toNat = x.toNat * 2 ^ n + y.toNat := by
  rw [BitVec.toNat_append, ← Nat.shiftLeft_add_eq_or_of_lt y.isLt, Nat.shiftLeft_eq]

theorem twoHalves_eq (lo hi : Half) : twoHalves lo hi = BitVec.ofNat 32 (lo.toNat + hi.toNat * 2 ^ 16) := by
  apply BitVec.eq_of_toNat_eq
  rw [twoHalves, toNat_append_add, BitVec.toNat_ofNat]
  omega

theorem toNat_headField (R : RangeUnit) (k : Fin Config.snakeCap) :
    (headField R k).toNat = if k.val < R.nsnake.val then R.snake[k].head.toNat else 0 := by
  unfold headField
  split <;> rfl

theorem toNat_histField (R : RangeUnit) (j : Fin Config.randHist) :
    (histField R j).toNat = if R.rndAct = true then R.rnd.hist[j].toNat else 0 := by
  unfold histField
  split <;> rfl

/-- `RSTAT`, field by field (10_state R156). -/
theorem rstat_eq (R : RangeUnit) :
    rstat R = BitVec.ofNat 32 (R.nsnake.val + (if R.pulseAct = true then 2 ^ 4 + R.pulse.level.toNat * 2 ^ 5 else 0) +
      (if R.rndAct = true then
        2 ^ 6 + R.rnd.count.val * 2 ^ 8 + R.rnd.len.val * 2 ^ 12 + R.rnd.cur.val * 2 ^ 16 else 0)) := by
  apply BitVec.eq_of_toNat_eq
  have hsnake : R.nsnake.val < 5 := R.nsnake.isLt
  have hlevel := R.pulse.level.isLt
  have hcount : R.rnd.count.val < 9 := R.rnd.count.isLt
  have hlen : R.rnd.len.val < 9 := R.rnd.len.isLt
  have hcur : R.rnd.cur.val < 8 := R.rnd.cur.isLt
  unfold rstat
  cases R.pulseAct <;> cases R.rndAct <;>
    simp only [Bool.false_eq_true, if_true, if_false, BitVec.toNat_setWidth, toNat_append_add, BitVec.ofNat_eq_ofNat,
      BitVec.toNat_ofNat] <;> omega

theorem toNat_kindField (S : SpcUnit) (j : Fin Config.spcPatCap) :
    (kindField S j).toNat = if j.val < S.npat.val then (kindCode S.pat[j].kind).toNat else 0 := by
  unfold kindField
  split <;> rfl

theorem toNat_phaseField (S : SpcUnit) (j : Fin Config.spcPatCap) :
    (phaseField S j).toNat =
      if j.val < S.npat.val ∧ (S.pat[j].kind = .blink ∨ S.pat[j].kind = .pwave) then S.pat[j].phase.toNat else 0 := by
  unfold phaseField
  by_cases h : j.val < S.npat.val
  · simp only [h, if_true, true_and]
    split <;> simp_all
  · simp [h]

/-- `SSTAT`, field by field (10_state R166). -/
theorem sstat_eq (S : SpcUnit) :
    sstat S = BitVec.ofNat 32 (S.npat.val + (kindField S 0).toNat * 2 ^ 4 + (kindField S 1).toNat * 2 ^ 6) := by
  apply BitVec.eq_of_toNat_eq
  have hnpat : S.npat.val < 3 := S.npat.isLt
  have hkind0 := (kindField S 0).isLt
  have hkind1 := (kindField S 1).isLt
  simp only [sstat, BitVec.toNat_setWidth, toNat_append_add, BitVec.ofNat_eq_ofNat, BitVec.toNat_ofNat]
  omega

/-- `PARAM`, field by field (10_state R121). -/
theorem paramValue_eq {s : State} (h : s.params.legal) :
    paramValue s = BitVec.ofNat 32 (s.stripLen * 2 ^ 16 + s.numGbk * 2 ^ 8 + s.numSpc * 2 ^ 4 + s.numRanges) := by
  have h : (1 ≤ s.stripLen ∧ s.stripLen ≤ 65535) ∧ (1 ≤ s.numRanges ∧ s.numRanges ≤ 8) ∧ s.numSpc ≤ 8 ∧ s.numGbk ≤ 8 := h
  apply BitVec.eq_of_toNat_eq
  simp only [paramValue, toNat_append_add, BitVec.ofNat_eq_ofNat, BitVec.toNat_ofNat]
  omega

/-- `STATUS`, field by field (10_state R124). -/
theorem status_eq (s : State) :
    s.status = BitVec.ofNat 32 (s.errs.toNat * 2 ^ 8 + if s.phase = .idle then 0 else 1) := by
  have herrs := s.errs.isLt
  have hbusy : (BitVec.ofBool s.busy).toNat = if s.phase = .idle then 0 else 1 := by
    by_cases h : s.phase = .idle <;> simp [State.busy, h]
  have hlt : (if s.phase = .idle then 0 else 1) < 2 ^ 8 := by split <;> decide
  apply BitVec.eq_of_toNat_eq
  calc s.status.toNat = s.errs.toNat <<< 8 ||| if s.phase = .idle then 0 else 1 := by
        rw [State.status, BitVec.toNat_or, BitVec.toNat_shiftLeft, BitVec.toNat_setWidth, BitVec.toNat_setWidth, hbusy,
          Nat.mod_eq_of_lt (a := s.errs.toNat) (by omega), Nat.shiftLeft_eq,
          Nat.mod_eq_of_lt (a := s.errs.toNat * 2 ^ 8) (by omega), Nat.mod_eq_of_lt (by omega)]
    _ = _ := by
        rw [← Nat.shiftLeft_add_eq_or_of_lt hlt, Nat.shiftLeft_eq, BitVec.toNat_ofNat, Nat.mod_eq_of_lt (by omega)]

/-- `CTRL` (10_state R122). -/
theorem modeBits_eq (m : DbgMode) :
    ((modeBits m).setWidth 32 : Word) = if m = .off then 0 else if m = .verbose then 1 else 2 := by
  cases m <;> decide

/-- The GBK readback block, word by word (10_state R146). -/
theorem gbkWord_eq (bk : BeatKeeper) {w : Nat} (hw : w < 4) :
    gbkWord bk w = if w = 0 then bk.dur else if w = 1 then bk.start else if w = 2 then bk.cum else 0 := by
  interval_cases w <;> rfl

/-- The word 3 of a GBK block is reserved (10_state R146). -/
theorem gbkWord_reserved (bk : BeatKeeper) {w : Nat} (hw : 3 ≤ w) : gbkWord bk w = 0 := by
  obtain ⟨k, rfl⟩ := Nat.exists_eq_add_of_le' hw
  rfl

/-- The words 8 to 15 of a range block are reserved (10_state R156). -/
theorem rangeWord_reserved (R : RangeUnit) {w : Nat} (hw : 8 ≤ w) : rangeWord R w = 0 := by
  obtain ⟨k, rfl⟩ := Nat.exists_eq_add_of_le' hw
  rfl

/-- The words 4 to 7 of an SPC block are reserved (10_state R166). -/
theorem spcWord_reserved (S : SpcUnit) {w : Nat} (hw : 4 ≤ w) : spcWord S w = 0 := by
  obtain ⟨k, rfl⟩ := Nat.exists_eq_add_of_le' hw
  rfl

/-- A block reads 0 where the unit is absent, and where the word of a present one does (20_memory R203). -/
theorem elim_eq_zero {α : Type} {l : List α} {n : Nat} {f : α → Word} (h : n < l.length → ∀ x, f x = 0) :
    (l[n]?).elim 0 f = 0 := by
  rcases Nat.lt_or_ge n l.length with hn | hn
  · rw [List.getElem?_eq_getElem hn]
    exact h hn _
  · rw [List.getElem?_eq_none hn]
    rfl

/-- While a command runs a readback word is free where the Engine writes it (`P`), and reads 0 elsewhere (log 7). -/
theorem reads_block {s : State} {ms : List Move} {off : Nat} {reg : Reg} {P : Prop} [Decidable P] (hr : s.rstN = true)
    (ho : StandsAt off reg) (hb : s.phase ≠ .idle) (he : engineWritten s reg = decide P)
    (hz : ¬ P → regValue s reg = 0) : if P then ReadsFree s ms off else ReadsAs s ms off 0 := by
  split
  · rename_i hP
    exact readsFree_of_engineWritten hr ho hb (by simp [he, hP])
  · rename_i hP
    exact readsAs_of_exact hr ho (.inr (by simp [he, hP])) (hz hP)

/-- The global registers that the Engine writes, and the frame view (20_memory R208). -/
theorem exists_engineWritten (s : State) {off : Nat} (h4 : off % 4 = 0)
    (ho : off = 0x024 ∨ (0x02C ≤ off ∧ off ≤ 0x03C) ∨ (0x10000 ≤ off ∧ off < 0x50000)) :
    ∃ reg, StandsAt off reg ∧ engineWritten s reg = true := by
  rcases ho with rfl | ⟨hlo, hhi⟩ | ⟨hlo, hhi⟩
  · exact ⟨.result, ⟨by decide, by decide, rfl⟩, rfl⟩
  · have hoff : off = 0x02C ∨ off = 0x030 ∨ off = 0x034 ∨ off = 0x038 ∨ off = 0x03C := by omega
    rcases hoff with rfl | rfl | rfl | rfl | rfl <;> exact ⟨_, ⟨by decide, by decide, rfl⟩, rfl⟩
  · obtain ⟨i, rfl⟩ : ∃ i, off = 0x10000 + 4 * i := ⟨(off - 0x10000) / 4, by omega⟩
    exact ⟨.frame i, standsAt_frame (by omega), rfl⟩

/-! ### The statements about reads and writes -/

theorem standsAt_cmd : StandsAt 0x010 .cmd := ⟨by decide, by decide, rfl⟩

/-- Settles O43, by whether the Engine is busy. -/
theorem cmdWriteIsAcceptedOrDropped : Obligations.CmdWriteIsAcceptedOrDropped := by
  unfold Obligations.CmdWriteIsAcceptedOrDropped
  intro s v ms hr ha
  rw [step_write v hr standsAt_cmd ha]
  refine ⟨fun hp => ?_, fun hp => ?_⟩
  · simp [writeReg, writeCmd, State.busy, hp, State.acceptCommand]
  · simp [writeReg, writeCmd, State.busy, hp, State.recordError, ErrCode.num]

/-- Settles O50: the Engine writes none of these registers. -/
theorem hostRegistersReadExactly : Obligations.HostRegistersReadExactly := by
  unfold Obligations.HostRegistersReadExactly
  intro s ms hr hp
  have hread {off : Nat} {reg : Reg} (ho : StandsAt off reg) (he : engineWritten s reg = false) :=
    step_read_exact (ms := ms) hr ho (.inr he)
  refine ⟨fun ha => ?_, fun ha => ?_, fun ha => ?_, fun ha => ?_, fun ha => ?_, fun k ha => ?_, fun ha => ?_,
    fun off h4 ho ha => ?_⟩
  · exact hread (reg := .id) ⟨by decide, by decide, rfl⟩ rfl ha
  · rw [hread (reg := .param) ⟨by decide, by decide, rfl⟩ rfl ha, ← paramValue_eq hp]
    rfl
  · rw [hread (reg := .ctrl) ⟨by decide, by decide, rfl⟩ rfl ha, ← modeBits_eq]
    rfl
  · rw [hread (reg := .status) ⟨by decide, by decide, rfl⟩ rfl ha, ← status_eq]
    rfl
  · exact hread standsAt_cmd rfl ha
  · exact hread (standsAt_arg k) rfl ha
  · exact hread (reg := .now) ⟨by decide, by decide, rfl⟩ rfl ha
  · exact hread (standsAt_unmapped h4 ho) rfl ha

/-- Settles O51: idle reads are exact, and busy ones are free exactly where the Engine writes. -/
theorem engineWrittenReads : Obligations.EngineWrittenReads := by
  unfold Obligations.EngineWrittenReads
  intro s ms hr
  have hread {off : Nat} {reg : Reg} (ho : StandsAt off reg) (hi : s.phase = .idle) :=
    step_read_exact (ms := ms) hr ho (.inl hi)
  refine ⟨fun hi ha => ?_, fun hi ha => ?_, fun hi ha => ?_, fun hi ha => ?_, fun hi ha => ?_, fun hi ha => ?_,
    fun g w hi hg hw ha => ?_, fun i hi hlt ha => ?_, fun off hb h4 ho => ?_, fun g w hb hg hw => ?_,
    fun r w hb hr8 hw => ?_, fun u w hb hu hw => ?_⟩
  · exact hread (reg := .result) ⟨by decide, by decide, rfl⟩ hi ha
  · exact hread (reg := .errInfo) ⟨by decide, by decide, rfl⟩ hi ha
  · rw [hread (reg := .errCode) ⟨by decide, by decide, rfl⟩ hi ha, BitVec.ofNat_toNat]
    rfl
  · exact hread (reg := .flushCnt) ⟨by decide, by decide, rfl⟩ hi ha
  · exact hread (reg := .writeCnt) ⟨by decide, by decide, rfl⟩ hi ha
  · exact hread (reg := .spcFlushCnt) ⟨by decide, by decide, rfl⟩ hi ha
  · refine ⟨_, hread (standsAt_gbk hg hw) hi ha, fun h => ?_, fun bk h => ?_⟩
    · simp [regValue, h]
    · simp [regValue, h, gbkWord_eq bk hw]
  · exact hread (standsAt_frame hlt) hi ha
  · obtain ⟨reg, hreg, he⟩ := exists_engineWritten s h4 ho
    exact readsFree_of_engineWritten hr hreg hb he
  · exact reads_block hr (standsAt_gbk hg hw) hb rfl fun h =>
      elim_eq_zero fun hlt bk => gbkWord_reserved bk (Nat.not_lt.mp fun h3 => h ⟨hlt, h3⟩)
  · exact reads_block hr (standsAt_range hr8 hw) hb rfl fun h =>
      elim_eq_zero fun hlt R => rangeWord_reserved R (Nat.not_lt.mp fun h8 => h ⟨hlt, h8⟩)
  · exact reads_block hr (standsAt_spc hu hw) hb rfl fun h =>
      elim_eq_zero fun hlt S => spcWord_reserved S (Nat.not_lt.mp fun h4 => h ⟨hlt, h4⟩)

/-- Settles O52, word by word of the two blocks. -/
theorem unitReadback : Obligations.UnitReadback := by
  unfold Obligations.UnitReadback
  intro s ms hr hi
  have hrange {r w v : Nat} {R : RangeUnit} (hr8 : r < 8) (hw : w < 16) (hR : s.ranges[r]? = some R)
      (hv : rangeWord R w = BitVec.ofNat 32 v) : ReadsAs s ms (0x100 + 64 * r + 4 * w) v :=
    readsAs_of_exact hr (standsAt_range hr8 hw) (.inl hi) (by simpa [regValue, hR] using hv)
  have hspc {u w v : Nat} {S : SpcUnit} (hu8 : u < 8) (hw : w < 8) (hS : s.spc[u]? = some S)
      (hv : spcWord S w = BitVec.ofNat 32 v) : ReadsAs s ms (0x300 + 32 * u + 4 * w) v :=
    readsAs_of_exact hr (standsAt_spc hu8 hw) (.inl hi) (by simpa [regValue, hS] using hv)
  refine ⟨fun r R hr8 hR => ?_, fun u S hu8 hS => ?_, fun r w hn hr8 hw => ?_, fun u w hn hu8 hw => ?_⟩
  · have hsnakes (j k : Fin Config.snakeCap) := twoHalves_eq (headField R j) (headField R k)
    have hhist (j k : Fin Config.randHist) := twoHalves_eq (histField R j) (histField R k)
    simp only [toNat_headField] at hsnakes
    simp only [toNat_histField] at hhist
    exact ⟨hrange (w := 0) hr8 (by decide) hR (twoHalves_eq _ _), hrange (w := 1) hr8 (by decide) hR (rstat_eq R),
      hrange (w := 2) hr8 (by decide) hR (hsnakes 0 1), hrange (w := 3) hr8 (by decide) hR (hsnakes 2 3),
      hrange (w := 4) hr8 (by decide) hR (hhist 0 1), hrange (w := 5) hr8 (by decide) hR (hhist 2 3),
      hrange (w := 6) hr8 (by decide) hR (hhist 4 5), hrange (w := 7) hr8 (by decide) hR (hhist 6 7),
      fun w h8 hw => hrange hr8 hw hR (rangeWord_reserved R h8)⟩
  · have hphase (j : Fin Config.spcPatCap) : (phaseField S j).setWidth 32 = BitVec.ofNat 32 (phaseField S j).toNat :=
      (BitVec.ofNat_toNat 32 _).symm
    have hstat := sstat_eq S
    simp only [toNat_phaseField] at hphase
    simp only [toNat_kindField] at hstat
    exact ⟨hspc (w := 0) hu8 (by decide) hS (by simp [spcWord]), hspc (w := 1) hu8 (by decide) hS hstat,
      hspc (w := 2) hu8 (by decide) hS (hphase 0), hspc (w := 3) hu8 (by decide) hS (hphase 1),
      fun w h4 hw => hspc hu8 hw hS (spcWord_reserved S h4)⟩
  · exact readsAs_of_exact hr (standsAt_range hr8 hw) (.inl hi) (elim_eq_zero fun h => absurd h (Nat.not_lt.mpr hn))
  · exact readsAs_of_exact hr (standsAt_spc hu8 hw) (.inl hi) (elim_eq_zero fun h => absurd h (Nat.not_lt.mpr hn))

end Sys2Proof.Machine

end

/-! ## The memory: what a host access keeps, and the frame that the strip device reads -/

section

namespace Sys2Proof.Machine

open Sys2Proof

/-! ### A host access -/

/-- What a host access keeps: the units, the frame and its length, and of a running command its latch and its phase
(20_memory R223, 70_reset R813). -/
structure HostKeeps (s t : State) : Prop where
  gbk : t.gbk = s.gbk
  ranges : t.ranges = s.ranges
  spc : t.spc = s.spc
  mem : t.mem = s.mem
  stripLen : t.stripLen = s.stripLen
  running : s.phase ≠ .idle → t.latch = s.latch ∧ t.phase = s.phase

section

variable {s t : State} {off : Nat} {size : AccSize} {v : Word}

theorem HostKeeps.refl (s : State) : HostKeeps s s := ⟨rfl, rfl, rfl, rfl, rfl, fun _ => ⟨rfl, rfl⟩⟩

theorem hostKeeps_writeReg (v : Word) (s : State) (reg : Reg) : HostKeeps s (writeReg v s reg) := by
  obtain ⟨hgbk, hranges, hspc, hmem, _, hlen, hrun⟩ := writeReg_keeps v s reg
  exact ⟨hgbk, hranges, hspc, hmem, hlen, hrun⟩

theorem hostKeeps_recordError (s : State) (e : ErrCode) (info : Word) : HostKeeps s (s.recordError e info) :=
  ⟨rfl, rfl, rfl, rfl, rfl, fun _ => ⟨rfl, rfl⟩⟩

/-- The read data and the count of free reads are not among what an access keeps (20_memory R207, R208). -/
theorem HostKeeps.readData (h : HostKeeps s t) (d : Word) (n : Nat) : HostKeeps s { t with rdata := d, freeReads := n } :=
  ⟨h.gbk, h.ranges, h.spc, h.mem, h.stripLen, h.running⟩

/-- A write that does not stop the machine is in the aperture (20_memory R200). -/
theorem inAperture_of_hostWrite (h : hostWrite off size v s = .next t) : off < 0x50000 := by
  by_contra hout
  rw [hostWrite, if_pos (Nat.not_lt.mp hout)] at h
  cases h

/-- A read that does not stop the machine is in the aperture (20_memory R200). -/
theorem inAperture_of_hostRead (h : hostRead off size s = .next t) : off < 0x50000 := by
  by_contra hout
  rw [hostRead, if_pos (Nat.not_lt.mp hout)] at h
  cases h

theorem hostKeeps_hostWrite (h : hostWrite off size v s = .next t) : HostKeeps s t := by
  rw [hostWrite_eq _ _ _ _ (inAperture_of_hostWrite h)] at h
  obtain rfl := Host.Outcome.next.inj h
  split
  · exact .refl s
  split
  · exact hostKeeps_writeReg v s _
  · exact hostKeeps_recordError s .acc _

theorem hostKeeps_hostRead (h : hostRead off size s = .next t) : HostKeeps s t := by
  rw [hostRead_eq _ _ _ (inAperture_of_hostRead h)] at h
  obtain rfl := Host.Outcome.next.inj h
  split
  · exact (HostKeeps.refl s).readData 0 s.freeReads
  split
  · obtain ⟨d, n, hread⟩ := readReg_eq s (regOf off)
    exact hread ▸ (HostKeeps.refl s).readData d n
  · exact (hostKeeps_recordError s .acc _).readData 0 s.freeReads

end

/-- Settles O47: an access that is not well-formed records `Error(ACC)` and no more. -/
theorem badAccessIsRecorded : Obligations.BadAccessIsRecorded := by
  unfold Obligations.BadAccessIsRecorded
  intro s off size v ms hr hlt hbad
  have hbad : ¬ (size = .b4 ∧ off % 4 = 0) := not_and_or.mpr hbad
  refine ⟨fun ha => ?_, fun ha => ?_⟩ <;> rw [step_of_agenda_cons s _ ms ha, applyMove]
  · rw [hostWrite_eq _ _ _ _ hlt, if_neg (by simp [hr]), if_neg hbad, State.recordError, ErrCode.bit_acc]
    rfl
  · rw [hostRead_eq _ _ _ hlt, if_neg (by simp [hr]), if_neg hbad, State.recordError, ErrCode.bit_acc]
    rfl

/-- Settles O49: a well-formed read is a register read. -/
theorem readsHaveNoSideEffect : Obligations.ReadsHaveNoSideEffect := by
  unfold Obligations.ReadsHaveNoSideEffect
  intro s off ms hr hlt h4 ha
  obtain ⟨d, n, hread⟩ := readReg_eq { s with agenda := ms } (regOf off)
  exact ⟨d, n, (step_read hr ⟨hlt, h4, rfl⟩ ha).trans (congrArg _ hread)⟩

/-- Settles O53: a write and a read keep all of it while a command runs. -/
theorem runningCommandIsProtected : Obligations.RunningCommandIsProtected := by
  unfold Obligations.RunningCommandIsProtected
  intro s t m ms hp ha hm h
  rw [step_of_agenda_cons s m ms ha] at h
  have hkeeps : HostKeeps { s with agenda := ms } t := by
    rcases hm with ⟨off, size, v, rfl⟩ | ⟨off, size, rfl⟩
    · exact hostKeeps_hostWrite h
    · exact hostKeeps_hostRead h
  obtain ⟨hlatch, hphase⟩ := hkeeps.running hp
  exact ⟨hlatch, hphase, hkeeps.mem, hkeeps.ranges, hkeeps.gbk, hkeeps.spc⟩

/-! ### The frame in a flush wait -/

/-- The frame and its length are kept. -/
structure KeepsFrame (s t : State) : Prop where
  mem : t.mem = s.mem
  stripLen : t.stripLen = s.stripLen

section

variable {s t : State}

/-- The frame port shows what it showed before (10_state R104). -/
theorem KeepsFrame.portPixel_eq (h : KeepsFrame s t) (idx : Half) : t.portPixel idx = s.portPixel idx := by
  simp [State.portPixel, State.frame, h.mem, h.stripLen]

theorem HostKeeps.keepsFrame (h : HostKeeps s t) : KeepsFrame s t := ⟨h.mem, h.stripLen⟩

/-- The Engine's turn in a strip flush wait (70_reset R800, R811). -/
theorem engineTurn_of_waitShow (hp : s.phase = .waitShow) :
    engineTurn s = .next (if s.rstN = true ∧ s.showAck = true then s.endShow else s) := by
  cases hr : s.rstN <;> simp [engineTurn, hr, hp]

theorem keepsFrame_engineTurn (hp : s.phase = .waitShow) (h : engineTurn s = .next t) : KeepsFrame s t := by
  rw [engineTurn_of_waitShow hp] at h
  obtain rfl := Host.Outcome.next.inj h
  split <;> exact ⟨rfl, rfl⟩

theorem keepsFrame_driveSpcAck {u : Nat} {level : Bool} (h : driveSpcAck u level s = .next t) : KeepsFrame s t := by
  unfold driveSpcAck at h
  split at h
  · exact Host.Outcome.next.inj h ▸ ⟨rfl, rfl⟩
  · cases h

/-- In a strip flush wait no move but reset touches the frame (20_memory R212, 70_reset R815). -/
theorem keepsFrame_applyMove {m : Move} (hp : s.phase = .waitShow) (hm : m ≠ .assertReset)
    (h : applyMove m s = .next t) : KeepsFrame s t := by
  cases m with
  | engine => exact keepsFrame_engineTurn hp h
  | scan reads =>
    obtain ⟨u, hu, rfl⟩ := engineTurnScanned_next reads s t h
    obtain ⟨hmem, hlen⟩ := keepsFrame_engineTurn hp hu
    exact ⟨hmem, hlen⟩
  | write off size v => exact (hostKeeps_hostWrite h).keepsFrame
  | read off size => exact (hostKeeps_hostRead h).keepsFrame
  | spcAck u level => exact keepsFrame_driveSpcAck h
  | assertReset => exact absurd rfl hm
  | clock | draw | stripAck | devIdx | releaseReset => exact Host.Outcome.next.inj h ▸ ⟨rfl, rfl⟩

theorem keepsFrame_step (hp : s.phase = .waitShow) (hm : ∀ ms, s.agenda ≠ .assertReset :: ms) (h : step s = .next t) :
    KeepsFrame s t := by
  rcases ha : s.agenda with _ | ⟨m, ms⟩
  · rw [step_of_agenda_nil s ha] at h
    exact keepsFrame_engineTurn hp h
  · rw [step_of_agenda_cons s m ms ha] at h
    have hm : m ≠ .assertReset := fun hreset => hm ms (hreset ▸ ha)
    obtain ⟨hmem, hlen⟩ := keepsFrame_applyMove (s := { s with agenda := ms }) hp hm h
    exact ⟨hmem, hlen⟩

/-! ### Reads beside a turn of the Engine -/

/-- A turn that goes through is as it is without the reads beside it (20_memory R212; log 24). -/
theorem engineTurnScanned_of_engineTurn (reads : List PixelRead) (h : engineTurn s = .next t) :
    engineTurnScanned reads s = .next
      { t with scanned := reads.map (readBeside s t), devIdx := (reads.getLast?).elim s.devIdx PixelRead.idx } := by
  simp [engineTurnScanned, h]

/-- A read beside a turn shows its pixel in the frame before the turn or in the one after it (20_memory R212). -/
theorem readBeside_eq (x : PixelRead) (hlen : t.stripLen = s.stripLen) :
    readBeside s t x =
      if x.idx.toNat < s.stripLen then readPixel (if x.after = true then t.mem else s.mem) x.idx.toNat else 0 := by
  cases hx : x.after <;> simp [readBeside, State.portPixel, State.frame, hx, hlen]

/-- No command changes the length of the strip (00_scope R10). -/
theorem stripLen_eq_of_exec {i : Instr} (h : exec i s = .next t) : t.stripLen = s.stripLen := by
  obtain ⟨e, b, hb, he⟩ := exec_cases h
  exact congrArg Config.Params.stripLen (he.params_eq.trans hb.params_eq)

end

/-- Settles O55: in a flush wait no read can tell the frames before and after a move apart; beside an EXEC step each read
has its own. -/
theorem deviceReadsTheFrame : Obligations.DeviceReadsTheFrame := by
  unfold Obligations.DeviceReadsTheFrame
  refine ⟨fun s t hp hreset h => ?_, fun s t i reads ms hr hp hd ha h => ?_⟩
  · have hkeeps := keepsFrame_step hp hreset h
    refine ⟨fun a => by rw [hkeeps.mem], hkeeps.portPixel_eq t.devIdx, fun reads ms ha => ?_⟩
    rw [step_of_agenda_cons s _ ms ha] at h
    obtain ⟨u, hu, rfl⟩ := engineTurnScanned_next reads _ t h
    obtain ⟨hmem, hlen⟩ := keepsFrame_engineTurn (s := { s with agenda := ms }) hp hu
    exact List.map_congr_left fun x _ => readBeside_of_same _ u x hmem hlen
  · have hturn : engineTurn { s with agenda := ms } = .next t :=
      (engineTurn_of_command (s := { s with agenda := ms }) hr hp hd).trans h
    have hreads : readBeside { s with agenda := ms } t = _ := funext fun x => readBeside_eq x (stripLen_eq_of_exec h)
    rw [step_of_agenda_cons s _ ms ha, applyMove, engineTurnScanned_of_engineTurn reads hturn, hreads]

end Sys2Proof.Machine

end

/-! ## The encoding: the fields of a word, the rows of the opcode map, and the decoder -/

section

namespace Sys2Proof

/-! ### The fields of a word -/

theorem opcField_eq (w : Word) : opcField w = w.toNat / 2 ^ 24 := by
  have := w.isLt
  simp only [opcField, field]
  omega

theorem unitField_lt (w : Word) : unitField w < 2 ^ 4 := Nat.mod_lt _ (by decide)

theorem opndField_lt (w : Word) : opndField w < 2 ^ 20 := Nat.mod_lt _ (by decide)

/-- A word is its three fields (30_encoding R301). -/
theorem word_eq_iff_fields (v w : Word) :
    v = w ↔ opcField v = opcField w ∧ unitField v = unitField w ∧ opndField v = opndField w := by
  refine ⟨fun h => h ▸ ⟨rfl, rfl, rfl⟩, fun ⟨hopc, hunit, hopnd⟩ => BitVec.eq_of_toNat_eq ?_⟩
  rw [opcField_eq, opcField_eq] at hopc
  simp only [unitField, opndField, field] at hunit hopnd
  omega

/-- A mask acts on each field by itself. -/
theorem field_and (hi lo : Nat) (v w : Word) : field hi lo (v &&& w) = field hi lo v &&& field hi lo w := by
  rw [field, BitVec.toNat_and, Nat.and_div_two_pow, Nat.and_mod_two_pow]
  rfl

/-- Bits `k` to `n - 1` of a number below `2 ^ n` are all zero exactly when it is below `2 ^ k`. -/
theorem and_ones_eq_zero_iff {x n k : Nat} (hx : x < 2 ^ n) (hk : k ≤ n) :
    x &&& (2 ^ n - 2 ^ k) = 0 ↔ x < 2 ^ k := by
  have hones : 2 ^ n - 2 ^ k = (2 ^ (n - k) - 1) <<< k := by
    rw [Nat.shiftLeft_eq, Nat.sub_mul, ← Nat.pow_add, Nat.sub_add_cancel hk, Nat.one_mul]
  have hand : x &&& (2 ^ n - 2 ^ k) = (x / 2 ^ k) <<< k := by
    apply Nat.eq_of_testBit_eq
    intro j
    have hhigh (hj : n ≤ j) : x.testBit j = false :=
      Nat.testBit_lt_two_pow (Nat.lt_of_lt_of_le hx (Nat.pow_le_pow_right (by decide) hj))
    rw [hones, Nat.testBit_and, Nat.testBit_shiftLeft, Nat.testBit_shiftLeft, Nat.testBit_two_pow_sub_one,
      Nat.testBit_div_two_pow]
    by_cases hkj : k ≤ j
    · by_cases hnj : n ≤ j
      · simp [hhigh hnj, Nat.sub_add_cancel hkj]
      · simp [hkj, Nat.sub_add_cancel hkj, show j - k < n - k by omega]
    · simp [hkj]
  rw [hand, Nat.shiftLeft_eq]
  simp [Nat.div_eq_zero_iff]

/-- The high bits of `OPND` are zero exactly when its value fits the bits below them. -/
theorem field_high_eq_zero_iff (k : Nat) (w : Word) (hk : k < 20) : field 19 k w = 0 ↔ opndField w < 2 ^ k := by
  have hsplit : field 19 k w = opndField w / 2 ^ k := by
    rw [field, opndField, field, show 19 - 0 + 1 = k + (19 - k + 1) by omega, Nat.pow_add 2 k, Nat.pow_zero,
      Nat.div_one, Nat.mod_mul_right_div_self]
  rw [hsplit, Nat.div_eq_zero_iff]
  simp

/-- The low bits of an `OPND` that fits them are its value. -/
theorem field_low_eq (k : Nat) (w : Word) (hk : k < 20) (h : opndField w < 2 ^ (k + 1)) : field k 0 w = opndField w := by
  have hsub : field k 0 w = opndField w % 2 ^ (k + 1) := by
    rw [field, opndField, field, Nat.sub_zero, Nat.mod_mod_of_dvd _ (Nat.pow_dvd_pow 2 (by omega))]
  rw [hsub, Nat.mod_eq_of_lt h]

/-! ### What each command leaves open in its word -/

/-- How many bits of `UNIT` a command leaves open: none in format Z (30_encoding R302-R306). -/
def Instr.unitBits : Instr → Nat
  | .nop | .blend => 0
  | _ => 4

/-- How many low bits of `OPND` a command leaves open (30_encoding R302-R306). -/
def Instr.opndBits : Instr → Nat
  | .rangeAddSnake _ _ => 1
  | .rangeAddRandom _ _ => 4
  | .spcAddPwave _ _ => 11
  | _ => 0

/-- The command of the same row with its operands taken from the word (30_encoding R301-R306). -/
def Instr.readFrom (w : Word) : Instr → Instr
  | .nop => .nop
  | .bkReset _ => .bkReset (unitField w)
  | .bkPoll _ => .bkPoll (unitField w)
  | .blend => .blend
  | .rangeCfg _ => .rangeCfg (unitField w)
  | .rangeClear _ => .rangeClear (unitField w)
  | .rangeAddSnake _ _ => .rangeAddSnake (unitField w) (dirOfBit (opndField w))
  | .rangeAddPulse _ => .rangeAddPulse (unitField w)
  | .rangeAddRandom _ _ => .rangeAddRandom (unitField w) (opndField w)
  | .rangeUpdate _ => .rangeUpdate (unitField w)
  | .spcClear _ => .spcClear (unitField w)
  | .spcAddSolid _ => .spcAddSolid (unitField w)
  | .spcAddBlink _ => .spcAddBlink (unitField w)
  | .spcAddPwave _ _ => .spcAddPwave (unitField w) (opndField w)
  | .spcUpdate _ => .spcUpdate (unitField w)

@[simp] theorem dirOfBit_bitOfDir (d : Dir) : dirOfBit (bitOfDir d) = d := by cases d <;> rfl

theorem bitOfDir_dirOfBit {b : Nat} (h : b < 2) : bitOfDir (dirOfBit b) = b := by
  interval_cases b <;> rfl

section

variable (i : Instr) (w : Word)

theorem Instr.unitBits_le : i.unitBits ≤ 4 := by cases i <;> simp [unitBits]

theorem Instr.opndBits_le : i.opndBits ≤ 20 := by cases i <;> simp [opndBits]

theorem Instr.row_readFrom : (i.readFrom w).row = i.row := by cases i <;> rfl

/-- A well-formed command is one whose unit and operand fit the bits its row leaves open (30_encoding R301-R306). -/
theorem Instr.wellFormed_iff :
    i.wellFormed = true ↔ i.unitNum < 2 ^ i.unitBits ∧ i.opnd < 2 ^ i.opndBits := by
  cases i with
  | rangeAddSnake u d => cases d <;> simp [wellFormed, unitNum, opnd, unitBits, opndBits, bitOfDir]
  | _ => simp [wellFormed, unitNum, opnd, unitBits, opndBits]

/-- The fields that fit what a row leaves open come back from the command read from the word. -/
theorem Instr.fields_readFrom (hunit : unitField w < 2 ^ i.unitBits) (hopnd : opndField w < 2 ^ i.opndBits) :
    (i.readFrom w).unitNum = unitField w ∧ (i.readFrom w).opnd = opndField w := by
  cases i with
  | rangeAddSnake u d => exact ⟨rfl, bitOfDir_dirOfBit hopnd⟩
  | _ => simp_all [readFrom, unitNum, opnd, unitBits, opndBits]

/-- A command is read back from any word with its unit and its operand. -/
theorem Instr.readFrom_eq_self (hunit : unitField w = i.unitNum) (hopnd : opndField w = i.opnd) :
    i.readFrom w = i := by
  cases i <;> simp [readFrom, hunit, hopnd, unitNum, opnd]

/-! ### The rows of the opcode map (30_encoding R310) -/

/-- A row's match has the opcode and nothing else. -/
theorem Instr.fields_matchBits :
    opcField i.row.matchBits = i.opc ∧ unitField i.row.matchBits = 0 ∧ opndField i.row.matchBits = 0 := by
  cases i <;> simp [row, opc, opcField, unitField, opndField, field]

/-- A row's mask has ones everywhere but in the bits left open. -/
theorem Instr.fields_mask :
    opcField i.row.mask = 2 ^ 8 - 1 ∧ unitField i.row.mask = 2 ^ 4 - 2 ^ i.unitBits ∧
      opndField i.row.mask = 2 ^ 20 - 2 ^ i.opndBits := by
  cases i <;> simp [row, unitBits, opndBits, opcField, unitField, opndField, field]

/-- A word spells a row's command exactly when it has its opcode and its fields fit what the row leaves open. -/
theorem Instr.spells_iff : i.row.spells w = true ↔
    opcField w = i.opc ∧ unitField w < 2 ^ i.unitBits ∧ opndField w < 2 ^ i.opndBits := by
  obtain ⟨mopc, munit, mopnd⟩ := i.fields_matchBits
  obtain ⟨kopc, kunit, kopnd⟩ := i.fields_mask
  have hopc : opcField (w &&& i.row.mask) = opcField w := by
    rw [opcField, field_and, ← opcField, ← opcField, kopc]
    exact Nat.and_two_pow_sub_one_of_lt_two_pow (Nat.mod_lt _ (by decide))
  have hunit : unitField (w &&& i.row.mask) = 0 ↔ unitField w < 2 ^ i.unitBits := by
    rw [unitField, field_and, ← unitField, ← unitField, kunit]
    exact and_ones_eq_zero_iff (unitField_lt w) i.unitBits_le
  have hopnd : opndField (w &&& i.row.mask) = 0 ↔ opndField w < 2 ^ i.opndBits := by
    rw [opndField, field_and, ← opndField, ← opndField, kopnd]
    exact and_ones_eq_zero_iff (opndField_lt w) i.opndBits_le
  rw [OpcodeRow.spells, beq_iff_eq, word_eq_iff_fields, mopc, munit, mopnd, hopc, hunit, hopnd]

/-! ### The decoder -/

/-- Format U, on the two fields (30_encoding R303). -/
theorem decodeU_eq (mk : Nat → Instr) :
    decodeU w mk = if opndField w < 2 ^ 0 then .command (mk (unitField w)) else .reservedBits := by
  simp [decodeU]

/-- Format S, on the two fields (30_encoding R304). -/
theorem decodeS_eq (mk : Nat → Dir → Instr) : decodeS w mk =
    if opndField w < 2 ^ 1 then .command (mk (unitField w) (dirOfBit (opndField w))) else .reservedBits := by
  unfold decodeS
  refine ite_congr (propext (field_high_eq_zero_iff 1 w (by decide))) (fun h => ?_) fun _ => rfl
  rw [field_low_eq 0 w (by decide) h]

/-- Format R, on the two fields (30_encoding R305). -/
theorem decodeR_eq (mk : Nat → Nat → Instr) : decodeR w mk =
    if opndField w < 2 ^ 4 then .command (mk (unitField w) (opndField w)) else .reservedBits := by
  unfold decodeR
  refine ite_congr (propext (field_high_eq_zero_iff 4 w (by decide))) (fun h => ?_) fun _ => rfl
  rw [field_low_eq 3 w (by decide) h]

/-- Format W, on the two fields (30_encoding R306). -/
theorem decodeW_eq (mk : Nat → Nat → Instr) : decodeW w mk =
    if opndField w < 2 ^ 11 then .command (mk (unitField w) (opndField w)) else .reservedBits := by
  unfold decodeW
  refine ite_congr (propext (field_high_eq_zero_iff 11 w (by decide))) (fun h => ?_) fun _ => rfl
  rw [field_low_eq 10 w (by decide) h]

/-- A word with the opcode of a row is a command of that row or has reserved bits set (30_encoding R310, R316). -/
theorem decode_of_opc (h : opcField w = i.opc) :
    decode w = if i.row.spells w = true then .command (i.readFrom w) else .reservedBits := by
  have hrow : i.row.spells w = true ↔ unitField w < 2 ^ i.unitBits ∧ opndField w < 2 ^ i.opndBits :=
    (i.spells_iff w).trans (and_iff_right h)
  have hunit := unitField_lt w
  simp only [hrow]
  cases i with
  | nop | blend => simp [decode, h, Instr.opc, decodeZ, Instr.unitBits, Instr.opndBits, Instr.readFrom]
  | _ =>
    simp only [decode, h, Instr.opc, decodeU_eq, decodeS_eq, decodeR_eq, decodeW_eq, Instr.unitBits, Instr.opndBits,
      Instr.readFrom, hunit, true_and]

/-- An opcode that no row has is undefined (30_encoding R315). -/
theorem decode_undefinedOpcode_iff : decode w = .undefinedOpcode ↔ ∀ j ∈ opcodeMap, opcField w ≠ j.opc := by
  constructor
  · intro h j _ hj
    rw [decode_of_opc j w hj] at h
    split at h <;> cases h
  · intro h
    simp only [opcodeMap, List.forall_mem_cons, Instr.opc] at h
    unfold decode
    split <;> simp_all

/-- A word decodes to a command exactly when it spells its row and carries its operands. -/
theorem decode_command_iff : decode w = .command i ↔ i.row.spells w = true ∧ i.readFrom w = i := by
  constructor
  · intro h
    obtain ⟨j, hj⟩ : ∃ j : Instr, opcField w = j.opc := by
      by_contra hno
      rw [(decode_undefinedOpcode_iff w).mpr fun j _ hj => hno ⟨j, hj⟩] at h
      cases h
    rw [decode_of_opc j w hj] at h
    split at h
    · rename_i hs
      obtain rfl := Decoded.command.inj h
      exact ⟨(j.row_readFrom w).symm ▸ hs, by cases j <;> rfl⟩
    · cases h
  · intro ⟨hs, hread⟩
    rw [decode_of_opc i w ((i.spells_iff w).mp hs).1, if_pos hs, hread]

end

/-! ### The encoder -/

section

variable {i : Instr} {w : Word}

/-- The fields of an encoded command, for every command (30_encoding R301, R310). -/
theorem fields_encode (h : i.wellFormed = true) :
    opcField (encode i) = i.opc ∧ unitField (encode i) = i.unitNum ∧ opndField (encode i) = i.opnd := by
  obtain ⟨hunit, hopnd⟩ := i.wellFormed_iff.mp h
  have hopc : i.opc < 256 := by cases i <;> simp [Instr.opc]
  exact Laws.EncodedFields.fields_of_sum _ _ _ hopc
    (hunit.trans_le (Nat.pow_le_pow_right (by decide) i.unitBits_le))
    (hopnd.trans_le (Nat.pow_le_pow_right (by decide) i.opndBits_le))

theorem decode_encode (h : i.wellFormed = true) : decode (encode i) = .command i := by
  obtain ⟨hopc, hunit, hopnd⟩ := fields_encode h
  obtain ⟨hunitFits, hopndFits⟩ := i.wellFormed_iff.mp h
  have hspells : i.row.spells (encode i) = true :=
    (i.spells_iff _).mpr ⟨hopc, hunit.symm ▸ hunitFits, hopnd.symm ▸ hopndFits⟩
  exact (decode_command_iff i _).mpr ⟨hspells, i.readFrom_eq_self _ hunit hopnd⟩

theorem encode_of_decode (h : decode w = .command i) : encode i = w := by
  obtain ⟨hspells, hread⟩ := (decode_command_iff i w).mp h
  obtain ⟨hopc, hunitFits, hopndFits⟩ := (i.spells_iff w).mp hspells
  obtain ⟨hunit, hopnd⟩ := i.fields_readFrom w hunitFits hopndFits
  rw [hread] at hunit hopnd
  obtain ⟨hopc', hunit', hopnd'⟩ := fields_encode (Machine.wellFormed_of_decode h)
  exact (word_eq_iff_fields _ _).mpr ⟨hopc'.trans hopc.symm, hunit'.trans hunit, hopnd'.trans hopnd⟩

/-- The fields of a well-formed command do not overlap, so their sum is their `|` (30_encoding R310). -/
theorem encode_eq_or (h : i.wellFormed = true) : encode i =
    BitVec.ofNat 32 i.opc <<< 24 ||| BitVec.ofNat 32 i.unitNum <<< 20 ||| BitVec.ofNat 32 i.opnd := by
  obtain ⟨_, hunit, hopnd⟩ := fields_encode h
  have hunit : i.unitNum < 2 ^ 4 := hunit ▸ unitField_lt _
  have hopnd : i.opnd < 2 ^ 20 := hopnd ▸ opndField_lt _
  have hsum : i.opc * 2 ^ 24 + i.unitNum * 2 ^ 20 + i.opnd = i.opc <<< 24 ||| i.unitNum <<< 20 ||| i.opnd := by
    rw [Nat.or_assoc, ← Nat.shiftLeft_add_eq_or_of_lt hopnd, ← Nat.shiftLeft_add_eq_or_of_lt (by omega),
      Nat.shiftLeft_eq, Nat.shiftLeft_eq, Nat.add_assoc]
  have hshift (x k : Nat) : BitVec.ofNat 32 (x <<< k) = BitVec.ofNat 32 x <<< k := by
    apply BitVec.eq_of_toNat_eq
    rw [BitVec.toNat_shiftLeft, BitVec.toNat_ofNat, BitVec.toNat_ofNat, Nat.shiftLeft_eq, Nat.shiftLeft_eq,
      Nat.mod_mul_mod]
  rw [encode, hsum, BitVec.ofNat_or, BitVec.ofNat_or, hshift, hshift]

end

/-- Settles O1, by the fields of a word: a command's encoding has its fields, and a word is its fields. -/
theorem decodeAndEncodeAgree : Obligations.DecodeAndEncodeAgree := by
  unfold Obligations.DecodeAndEncodeAgree
  exact ⟨fun _ h => decode_encode h, fun _ _ h => ⟨Machine.wellFormed_of_decode h, encode_of_decode h⟩⟩

/-- Settles O2, row by row: the opcode finds the row, and the rest of the mask asks for the reserved fields. -/
theorem decodeAgreesWithOpcodeMap : Obligations.DecodeAgreesWithOpcodeMap := by
  unfold Obligations.DecodeAgreesWithOpcodeMap
  have hdistinct : ∀ j ∈ opcodeMap, ∀ k ∈ opcodeMap, j.opc = k.opc → j = k := by decide
  refine ⟨fun w j _ => ⟨fun hs => ?_, ?_⟩, fun w j hj k hk hsj hsk => ?_, fun w => ?_, fun _ h => encode_eq_or h⟩
  · refine ⟨j.readFrom w, ?_, j.row_readFrom w⟩
    rw [decode_of_opc j w ((j.spells_iff w).mp hs).1, if_pos hs]
  · rintro ⟨i, hd, hrow⟩
    exact hrow ▸ ((decode_command_iff i w).mp hd).1
  · exact hdistinct j hj k hk (((j.spells_iff w).mp hsj).1.symm.trans ((k.spells_iff w).mp hsk).1)
  · rw [decode_undefinedOpcode_iff, opcField_eq]

/-- Settles O3, by running the decoder on each word. -/
theorem sampleWordsDecode : Obligations.SampleWordsDecode := by
  unfold Obligations.SampleWordsDecode
  decide

end Sys2Proof

end

/-! ## The checks of an EXEC step: the word, the unit and the operands (60_exceptions R715) -/

section

namespace Sys2Proof.Machine

open Sys2Proof

/-! ### A word that spells no command -/

section

variable {s : State}

/-- An error raised by an EXEC step, written out (60_exceptions R710). -/
theorem engineError_eq (s : State) (e : ErrCode) : s.engineError e = afterEngineError e.num s := rfl

/-- The Engine's step in phase EXEC (10_state R113). -/
theorem step_of_exec (hn : EngineNext s) (hp : s.phase = .exec) : step s = execLatched s := by
  obtain ⟨hr, ha⟩ := hn
  rw [step_of_agenda_nil s ha]
  simp [engineTurn, hr, hp]

theorem execLatched_of_undefinedOpcode (hd : decode s.latch.word = .undefinedOpcode) :
    execLatched s = .next (afterEngineError 1 s) := by
  rw [execLatched, hd, engineError_eq]
  rfl

theorem execLatched_of_reservedBits (hd : decode s.latch.word = .reservedBits) :
    execLatched s = .next (afterEngineError 2 s) := by
  rw [execLatched, hd, engineError_eq]
  rfl

end

/-- Settles O5: no row has an opcode of the listed intervals, and a word with a row's opcode that does not spell it has
reserved bits set. -/
theorem rejectedWordsAreRecorded : Obligations.RejectedWordsAreRecorded := by
  unfold Obligations.RejectedWordsAreRecorded
  intro s hn hp
  rw [step_of_exec hn hp, ← opcField_eq]
  refine ⟨fun hopc => execLatched_of_undefinedOpcode ?_, fun j _ hj hne => execLatched_of_reservedBits ?_⟩
  · refine (decode_undefinedOpcode_iff _).mpr fun j _ => ?_
    cases j <;> simp only [Instr.opc] <;> omega
  · have hspells : ¬ j.row.spells s.latch.word = true := by simpa [OpcodeRow.spells] using hne
    rw [decode_of_opc j _ hj, if_neg hspells]

/-! ### The checks of a command -/

/-- The outcome is a next state that has recorded no error. -/
def KeepsErrors (s : State) (o : Out) : Prop :=
  ∃ t, o = .next t ∧ t.errs = s.errs ∧ t.errCode = s.errCode ∧ t.errInfo = s.errInfo

/-- What the check of operand values makes of a command: `Error(ARG)` exactly when they are not legal (30_encoding R317). -/
structure OperandCheck (s : State) (legal : Prop) (o : Out) : Prop where
  illegal : ¬ legal → o = .next (afterEngineError 4 s)
  keeps : legal → KeepsErrors s o

/-- What the two checks make of a command: `Error(UNIT)` when its unit is not valid, else the check of its operand values
(30_encoding R311, 60_exceptions R715). -/
structure UnitCheck (s : State) (valid legal : Prop) (o : Out) : Prop where
  invalid : ¬ valid → o = .next (afterEngineError 3 s)
  operands : valid → OperandCheck s legal o

section

variable {s : State} {legal : Prop} {o : Out}

theorem keepsErrors_next {t : State} (herrs : t.errs = s.errs) (hcode : t.errCode = s.errCode)
    (hinfo : t.errInfo = s.errInfo) : KeepsErrors s (.next t) :=
  ⟨t, rfl, herrs, hcode, hinfo⟩

/-- A command without operand values to check. -/
theorem KeepsErrors.operandCheck (h : KeepsErrors s o) : OperandCheck s True o :=
  ⟨fun hl => absurd trivial hl, fun _ => h⟩

theorem operandCheck_withLegal {b : Bool} (hb : b = true ↔ legal) (h : KeepsErrors s o) :
    OperandCheck s legal (withLegal b s o) := by
  refine ⟨fun hl => ?_, fun hl => ?_⟩
  · rw [withLegal, if_neg (mt hb.mp hl), engineError_eq]
    rfl
  · rwa [withLegal, if_pos (hb.mpr hl)]

/-- A command that names no unit. -/
theorem unitCheck_of_operandCheck (h : OperandCheck s legal o) : UnitCheck s True legal o :=
  ⟨fun hv => absurd trivial hv, fun _ => h⟩

theorem unitCheck_withGbk {g : Nat} {run : BeatKeeper → Out} (h : ∀ bk, OperandCheck s legal (run bk)) :
    UnitCheck s (g < s.numGbk) legal (withGbk g s run) := by
  refine ⟨fun hv => ?_, fun hv => ?_⟩
  · rw [withGbk, List.getElem?_eq_none (Nat.not_lt.mp hv)]
    rfl
  · rw [withGbk, List.getElem?_eq_getElem hv]
    exact h _

theorem unitCheck_withRange {r : Nat} {run : RangeUnit → Out} (h : ∀ R, OperandCheck s legal (run R)) :
    UnitCheck s (r < s.numRanges) legal (withRange r s run) := by
  refine ⟨fun hv => ?_, fun hv => ?_⟩
  · rw [withRange, List.getElem?_eq_none (Nat.not_lt.mp hv)]
    rfl
  · rw [withRange, List.getElem?_eq_getElem hv]
    exact h _

theorem unitCheck_withSpc {u : Nat} {run : SpcUnit → Out} (h : ∀ S, OperandCheck s legal (run S)) :
    UnitCheck s (u < s.numSpc) legal (withSpc u s run) := by
  refine ⟨fun hv => ?_, fun hv => ?_⟩
  · rw [withSpc, List.getElem?_eq_none (Nat.not_lt.mp hv)]
    rfl
  · rw [withSpc, List.getElem?_eq_getElem hv]
    exact h _

/-- An unconfigured range is no valid unit, nor is an absent one. -/
theorem unitCheck_withConfiguredRange {r : Nat} {run : RangeUnit → Out} (h : ∀ R, OperandCheck s legal (run R)) :
    UnitCheck s (∃ R, s.ranges[r]? = some R ∧ R.size ≠ 0) legal (withConfiguredRange r s run) := by
  refine ⟨fun hv => ?_, ?_⟩
  · rcases e : s.ranges[r]? with _ | R
    · rw [withConfiguredRange, withRange, e]
      rfl
    · have hz : R.size = 0 := by
        by_contra hz
        exact hv ⟨R, e, hz⟩
      simp only [withConfiguredRange, withRange, e, if_pos hz, engineError_eq, ErrCode.num]
  · rintro ⟨R, e, hz⟩
    simpa only [withConfiguredRange, withRange, e, if_neg hz] using h R

end

/-! ### The legal operand values -/

/-- The legal intervals, on the numbers in the halves of `A[0]` (42_range_setup R462). -/
theorem legalInterval_iff (stripLen : Nat) (a : Word) : legalInterval stripLen (lowHalf a) (highHalf a) = true ↔
    a.toNat / 2 ^ 16 ≠ 0 ∧ a.toNat % 2 ^ 16 + a.toNat / 2 ^ 16 ≤ stripLen := by
  have hlow : (lowHalf a).toNat = a.toNat % 2 ^ 16 := by simp [lowHalf]
  have hhigh : (highHalf a).toNat = a.toNat / 2 ^ 16 := by
    have := a.isLt
    rw [highHalf, BitVec.extractLsb'_toNat, Nat.shiftRight_eq_div_pow]
    omega
  rw [legalInterval, decide_eq_true_iff, Ne, ← BitVec.toNat_inj, hlow, hhigh]
  rfl

/-! ### Every command -/

/-- No ending records an error. -/
theorem keepsErrors_ending {s b : State} (e : Ending) (herrs : b.errs = s.errs) (hcode : b.errCode = s.errCode)
    (hinfo : b.errInfo = s.errInfo) : KeepsErrors s (.next (e.apply b)) := by
  have he := e.ends_apply b
  generalize e.apply b = t at he
  cases he <;> exact keepsErrors_next herrs hcode hinfo

theorem unitCheck_execRangeClear (r : Nat) (s : State) :
    UnitCheck s (unitValid s (.rangeClear r)) True (execRangeClear r s) := by
  refine unitCheck_withConfiguredRange fun R => KeepsErrors.operandCheck ?_
  dsimp only
  split <;> exact keepsErrors_next rfl rfl rfl

theorem unitCheck_execRangeUpdate (r : Nat) (s : State) :
    UnitCheck s (unitValid s (.rangeUpdate r)) True (execRangeUpdate r s) := by
  refine unitCheck_withConfiguredRange fun R => KeepsErrors.operandCheck ?_
  split
  · exact keepsErrors_ending .flush rfl rfl rfl
  · exact keepsErrors_next rfl rfl rfl

theorem unitCheck_execSpcUpdate (u : Nat) (s : State) :
    UnitCheck s (unitValid s (.spcUpdate u)) True (execSpcUpdate u s) := by
  refine unitCheck_withSpc fun S => KeepsErrors.operandCheck ?_
  split
  · exact keepsErrors_ending (.spcFlush u _) rfl rfl rfl
  · exact keepsErrors_next rfl rfl rfl

/-- The checks of every command, with the spec's own words for a valid unit and legal operands (60_exceptions R715). -/
theorem exec_unitCheck (i : Instr) (s : State) : UnitCheck s (unitValid s i) (operandsLegal s i) (exec i s) := by
  have hdone {t : State} (herrs : t.errs = s.errs) (hcode : t.errCode = s.errCode) (hinfo : t.errInfo = s.errInfo) :
      OperandCheck s True (.next t) := (keepsErrors_next herrs hcode hinfo).operandCheck
  cases i with
  | nop => exact unitCheck_of_operandCheck (hdone rfl rfl rfl)
  | bkReset g | bkPoll g => exact unitCheck_withGbk fun _ => hdone rfl rfl rfl
  | blend =>
    exact unitCheck_of_operandCheck (operandCheck_withLegal decide_eq_true_iff (keepsErrors_next rfl rfl rfl))
  | rangeCfg r =>
    exact unitCheck_withRange fun _ =>
      operandCheck_withLegal (legalInterval_iff s.stripLen s.latch.a.a0) (keepsErrors_next rfl rfl rfl)
  | rangeClear r => exact unitCheck_execRangeClear r s
  | rangeAddSnake r d | rangeAddPulse r => exact unitCheck_withConfiguredRange fun _ => hdone rfl rfl rfl
  | rangeAddRandom r c =>
    exact unitCheck_withConfiguredRange fun _ =>
      operandCheck_withLegal decide_eq_true_iff (keepsErrors_next rfl rfl rfl)
  | rangeUpdate r => exact unitCheck_execRangeUpdate r s
  | spcClear u | spcAddSolid u | spcAddBlink u => exact unitCheck_withSpc fun _ => hdone rfl rfl rfl
  | spcAddPwave u half =>
    exact unitCheck_withSpc fun _ => operandCheck_withLegal decide_eq_true_iff (keepsErrors_next rfl rfl rfl)
  | spcUpdate u => exact unitCheck_execSpcUpdate u s

/-- Settles O6, by the check of the unit. -/
theorem invalidUnitIsRecorded : Obligations.InvalidUnitIsRecorded := by
  unfold Obligations.InvalidUnitIsRecorded
  exact fun i s => (exec_unitCheck i s).invalid

/-- Settles O7, by the check of the operand values that follows the check of the unit. -/
theorem illegalOperandIsRecorded : Obligations.IllegalOperandIsRecorded := by
  unfold Obligations.IllegalOperandIsRecorded
  intro i s hv
  have hoperands := (exec_unitCheck i s).operands hv
  exact ⟨hoperands.illegal, hoperands.keeps⟩

end Sys2Proof.Machine

end

/-! ## The BeatKeeper: a poll reports the whole periods not yet reported (40_beatkeeper) -/

section

namespace Sys2Proof.Machine

open Sys2Proof

/-! ### The two commands -/

section

variable {g : Nat} {s : State} {bk : BeatKeeper}

/-- BK_RESET on a channel that exists (40_beatkeeper R410). -/
theorem exec_bkReset_of_getElem? (h : s.gbk[g]? = some bk) :
    exec (.bkReset g) s = .next (s.setGbk g (bkReset s.nowMs s.latch.a.a3)).finish := by
  change withGbk g s _ = _
  rw [withGbk, h]

/-- BK_POLL on a channel that exists (40_beatkeeper R412). -/
theorem exec_bkPoll_of_getElem? (h : s.gbk[g]? = some bk) :
    exec (.bkPoll g) s =
      .next { (s.setGbk g (polled s.nowMs bk)).finish with result := beats s.nowMs bk } := by
  change withGbk g s _ = _
  rw [withGbk, h]

end

/-- Settles O10: the record update of BK_RESET, written out. -/
theorem bkResetSetsTheChannel : Obligations.BkResetSetsTheChannel := by
  unfold Obligations.BkResetSetsTheChannel
  intro g s hg
  exact exec_bkReset_of_getElem? (List.getElem?_eq_getElem hg)

/-- Settles O11, by the four cases of a poll. -/
theorem bkPollReturnsTheBeats : Obligations.BkPollReturnsTheBeats := by
  unfold Obligations.BkPollReturnsTheBeats
  intro g s bk hg
  refine ⟨beats s.nowMs bk, polled s.nowMs bk, exec_bkPoll_of_getElem? hg, ?_⟩
  dsimp only
  rcases poll_cases s.nowMs bk with ⟨hd, h⟩ | ⟨hd, hs, h⟩ | ⟨hd, hs, hc, h⟩ | ⟨hd, hs, hc, h⟩
  · rw [if_pos hd, beats, polled, h]
    exact ⟨rfl, rfl⟩
  · rw [if_neg hd, if_pos hs, beats, polled, h]
    exact ⟨rfl, rfl⟩
  · rw [if_neg hd, if_neg (Nat.not_lt.mpr hs), if_pos hc, beats, polled, h]
    exact ⟨rfl, rfl⟩
  · rw [if_neg hd, if_neg (Nat.not_lt.mpr hs), if_neg (Nat.not_lt.mpr hc)]
    exact h

/-! ### Whole periods -/

/-- The whole periods from the reset to a time: `total` of 40_beatkeeper R402. -/
def wholePeriods (bk : BeatKeeper) (now : Word) : Nat := (now.toNat - bk.start.toNat) / bk.dur.toNat

/-- The BeatKeeper runs and has reported every whole period up to a time at or after its reset: what a reset or a poll at
that time leaves (`countedTo_bkReset`, `countedTo_polled`). -/
structure CountedTo (now : Word) (bk : BeatKeeper) : Prop where
  enabled : bk.dur ≠ 0
  started : bk.start.toNat ≤ now.toNat
  counted : bk.cum.toNat = wholePeriods bk now

section

variable {now later : Word} {bk : BeatKeeper}

theorem wholePeriods_congr {bk' : BeatKeeper} (hd : bk'.dur = bk.dur) (hs : bk'.start = bk.start) (now : Word) :
    wholePeriods bk' now = wholePeriods bk now := by
  rw [wholePeriods, hd, hs, wholePeriods]

theorem wholePeriods_mono (h : now.toNat ≤ later.toNat) : wholePeriods bk now ≤ wholePeriods bk later :=
  Nat.div_le_div_right (Nat.sub_le_sub_right h _)

theorem countedTo_bkReset {d : Word} (hd : d ≠ 0) : CountedTo now (bkReset now d) :=
  ⟨hd, Nat.le_refl _, by simp [wholePeriods, bkReset]⟩

theorem poll_of_disabled (hd : bk.dur = 0) (now : Word) : poll now bk = (0, bk) := if_pos hd

/-- A poll of a clock that has not gone back, neither behind the reset nor behind the count, is the fourth case of
40_beatkeeper R402: the beats make up for what the count lacks, and the start stays. -/
theorem poll_of_cum_le (hd : bk.dur ≠ 0) (hs : bk.start.toNat ≤ now.toNat) (hc : bk.cum.toNat ≤ wholePeriods bk now) :
    (beats now bk).toNat + bk.cum.toNat = wholePeriods bk now ∧
      (polled now bk).start = bk.start ∧ (polled now bk).cum.toNat = wholePeriods bk now := by
  unfold wholePeriods at *
  rcases poll_cases now bk with ⟨h, _⟩ | ⟨_, h, _⟩ | ⟨_, _, h, _⟩ | ⟨_, _, _, hb, _, hstart, hcum⟩
  · exact absurd h hd
  · exact absurd h (Nat.not_lt.mpr hs)
  · exact absurd h (Nat.not_lt.mpr hc)
  · exact ⟨by rw [beats, hb, Nat.sub_add_cancel hc], hstart, hcum⟩

/-- A poll of a running BeatKeeper counts up to its own time: it either restarts there or takes the count of then. -/
theorem countedTo_polled (hd : bk.dur ≠ 0) (now : Word) : CountedTo now (polled now bk) := by
  rcases poll_cases now bk with ⟨h, _⟩ | ⟨_, _, h⟩ | ⟨_, _, _, h⟩ | ⟨_, hs, _, _, hdur, hstart, hcum⟩
  · exact absurd h hd
  · rw [polled, h]
    exact countedTo_bkReset hd
  · rw [polled, h]
    exact countedTo_bkReset hd
  · exact ⟨hdur ▸ hd, hstart ▸ hs, hcum.trans (wholePeriods_congr hdur hstart now).symm⟩

/-- Once a period is counted, polls within it change nothing (40_beatkeeper R403). -/
theorem poll_of_countedTo (h : CountedTo now bk) (hs : bk.start.toNat ≤ later.toNat)
    (hp : wholePeriods bk later = wholePeriods bk now) : beats later bk = 0 ∧ polled later bk = bk := by
  have hcum : bk.cum.toNat = wholePeriods bk later := h.counted.trans hp.symm
  obtain ⟨hbeats, hstart, hcum'⟩ := poll_of_cum_le h.enabled hs hcum.le
  refine ⟨BitVec.eq_of_toNat_eq (by simpa using hbeats.trans hcum.symm), ?_⟩
  calc polled later bk
      = ⟨(polled later bk).dur, (polled later bk).start, (polled later bk).cum⟩ := rfl
    _ = ⟨bk.dur, bk.start, bk.cum⟩ := by
      rw [polled_dur, hstart, BitVec.eq_of_toNat_eq (hcum'.trans hcum.symm)]

end

/-- Settles O12: a disabled BeatKeeper never changes, and a running one has counted the period of its first poll. -/
theorem pollIsIdempotent : Obligations.PollIsIdempotent := by
  unfold Obligations.PollIsIdempotent
  intro now later bk
  by_cases hd : bk.dur = 0
  · simp [beats, polled, poll_of_disabled hd]
  · have hcounted := countedTo_polled hd now
    obtain ⟨hbeats, hpolled⟩ := poll_of_countedTo hcounted hcounted.started rfl
    exact ⟨hbeats, hpolled, poll_of_countedTo hcounted⟩

/-! ### Catch-up -/

/-- The beats of polls that never go back, with those counted before, are the whole periods up to the last poll: each poll
hands on a count that is up to date and the same start (40_beatkeeper R404). -/
theorem beatTotal_add_cum {t : Word} {ts : List Word} {bk : BeatKeeper} (h : CountedTo t bk)
    (hts : (t :: ts).Pairwise fun t u => t.toNat ≤ u.toNat) :
    beatTotal bk ts + bk.cum.toNat = wholePeriods bk (ts.getLastD t) := by
  induction ts generalizing t bk with
  | nil => simpa [beatTotal] using h.counted
  | cons u us ih =>
    have htu : t.toNat ≤ u.toNat := List.rel_of_pairwise_cons hts List.mem_cons_self
    have hle : bk.cum.toNat ≤ wholePeriods bk u := h.counted.trans_le (wholePeriods_mono htu)
    obtain ⟨hbeats, hstart, hcum⟩ := poll_of_cum_le h.enabled (h.started.trans htu) hle
    have hrest := ih (countedTo_polled h.enabled u) hts.of_cons
    rw [wholePeriods_congr (polled_dur u bk) hstart, hcum] at hrest
    rw [beatTotal, List.getLastD_cons, ← hrest]
    omega

/-- Settles O13: a reset leaves nothing counted, and the polls make up the rest. -/
theorem pollsCatchUp : Obligations.PollsCatchUp := by
  unfold Obligations.PollsCatchUp
  intro d start last ts hd hts
  simpa [wholePeriods, bkReset] using beatTotal_add_cum (countedTo_bkReset hd) hts

end Sys2Proof.Machine

end

/-! ## Colours: a blend adds a weighted source to each channel, and `Scale` keeps the weighted channel (41_color) -/

section

namespace Sys2Proof.Machine

open Sys2Proof

/-! ### The weighted channel at the two exact gammas -/

section

variable {gd : Nat}

theorem roundHalfUp_mul_self (n : Nat) (hd : 0 < gd) : roundHalfUp (n * gd) gd = n := by
  have hhalf : gd / (2 * gd) = 0 := Nat.div_eq_of_lt (by omega)
  calc roundHalfUp (n * gd) gd
      = (gd + 2 * gd * n) / (2 * gd) := by rw [roundHalfUp]; ring_nf
    _ = n := by rw [Nat.add_mul_div_left _ _ (by omega), hhalf, Nat.zero_add]

/-- Gamma 1 keeps the channel (41_color R433). -/
theorem weighted_self (c : Color) (k : Chan) (hd : 0 < gd) : weighted c gd gd k = (ch c k).toNat :=
  roundHalfUp_mul_self _ hd

/-- Gamma 0 leaves nothing of the channel (41_color R433). -/
theorem weighted_zero (c : Color) (k : Chan) (hd : 0 < gd) : weighted c 0 gd k = 0 := by
  simpa [weighted] using roundHalfUp_mul_self 0 hd

end

/-! ### The channels of a blend and of a scaled colour -/

section

variable (c dst src : Color) (gn gd : Nat) (k : Chan)

/-- The addend of a blend depends on its source and gamma only (41_color R432, R434). -/
@[simp] theorem ch_blend : ch (blend dst src gn gd) k = ch dst k + BitVec.ofNat 8 (weighted src gn gd k) := by
  rw [blend, ch_packChannels, BitVec.ofNat_add, BitVec.ofNat_toNat, BitVec.setWidth_eq]

theorem toNat_ch_blend :
    (ch (blend dst src gn gd) k).toNat = ((ch dst k).toNat + weighted src gn gd k) % 256 := by
  rw [ch_blend, BitVec.toNat_add, BitVec.toNat_ofNat, Nat.add_mod_mod]

variable {gn gd}

/-- A scaled channel needs no reduction modulo 256: it is at most the channel (41_color R436). -/
theorem toNat_ch_scale (hd : 0 < gd) (h : gn ≤ gd) : (ch (scale c gn gd) k).toNat = weighted c gn gd k := by
  have hlt : weighted c gn gd k < 256 := (weighted_le c gn gd k h hd).trans_lt (ch c k).isLt
  rw [scale, ch_packChannels, BitVec.toNat_ofNat, Nat.mod_eq_of_lt hlt]

theorem ch_blend_self (hd : 0 < gd) : ch (blend dst src gd gd) k = ch dst k + ch src k := by
  rw [ch_blend, weighted_self src k hd, BitVec.ofNat_toNat, BitVec.setWidth_eq]

theorem blend_zero (hd : 0 < gd) : blend dst src 0 gd = dst :=
  colour_ext fun k => by rw [ch_blend, weighted_zero src k hd, BitVec.add_zero]

theorem blend_black_self (hd : 0 < gd) : blend black src gd gd = src :=
  colour_ext fun k => by
    rw [ch_blend_self black src k hd, ch_black]
    exact BitVec.zero_add _

end

/-- Settles O14: the addend is the weighted channel, which `weighted_le` bounds. -/
theorem blendAddsEachChannel : Obligations.BlendAddsEachChannel := by
  unfold Obligations.BlendAddsEachChannel
  intro dst src gn gd hd h k
  exact ⟨toNat_ch_blend dst src gn gd k, weighted_le src gn gd k h hd⟩

/-- Settles O15, by the weighted channel at the two exact gammas. -/
theorem blendAtGammaOneAndZero : Obligations.BlendAtGammaOneAndZero := by
  unfold Obligations.BlendAtGammaOneAndZero
  intro dst src gd hd
  exact ⟨blend_black_self src hd, fun k => ch_blend_self dst src k hd, blend_zero dst src hd⟩

/-- Settles O16: on each channel the two addends are exchanged. -/
theorem blendsCommute : Obligations.BlendsCommute := by
  unfold Obligations.BlendsCommute
  intro d a b gn gd hn hd
  refine colour_ext fun k => ?_
  simp only [ch_blend]
  exact add_right_comm _ _ _

/-- Settles O17: the scaled channel is the weighted channel, which `weighted_le` bounds. -/
theorem scaleWeighsEachChannel : Obligations.ScaleWeighsEachChannel := by
  unfold Obligations.ScaleWeighsEachChannel
  intro c gn gd hd h k
  have hscale := toNat_ch_scale c k hd h
  exact ⟨hscale, hscale.trans_le (weighted_le c gn gd k h hd)⟩

/-! ### The command -/

/-- BLEND at a gamma of at most 1 (41_color R440). -/
theorem exec_blend_of_gamma_le {s : State} (h : s.latch.a.a2.toNat ≤ 0x10000) :
    exec .blend s =
      .next { s.finish with result := blend s.latch.a.a0 s.latch.a.a1 s.latch.a.a2.toNat 0x10000 } := by
  change withLegal (legalGamma s.latch.a.a2) s _ = _
  exact if_pos (decide_eq_true h)

/-- Settles O18, by the channels of a blend at a gamma in 65536ths. -/
theorem blendCommandWritesResult : Obligations.BlendCommandWritesResult := by
  unfold Obligations.BlendCommandWritesResult
  intro s h
  exact ⟨_, exec_blend_of_gamma_le h, toNat_ch_blend _ _ _ 0x10000⟩

end Sys2Proof.Machine

end

/-! ## Range configuration and registration: each command replaces the one range it names (42_range_setup) -/

section

namespace Sys2Proof.Machine

open Sys2Proof

/-! ### The halves of an argument register (30_encoding R307) -/

theorem lowHalf_eq (a : Word) : lowHalf a = BitVec.ofNat 16 (a.toNat % 2 ^ 16) := by
  apply BitVec.eq_of_toNat_eq
  simp [lowHalf]

theorem highHalf_eq (a : Word) : highHalf a = BitVec.ofNat 16 (a.toNat / 2 ^ 16) := by
  apply BitVec.eq_of_toNat_eq
  rw [highHalf, BitVec.extractLsb'_toNat, Nat.shiftRight_eq_div_pow, BitVec.toNat_ofNat]

/-! ### The commands on a range that passes their checks (30_encoding R311, R317) -/

section

variable {r : Nat} {s : State} {R : RangeUnit}

theorem withRange_of_getElem? (h : s.ranges[r]? = some R) (run : RangeUnit → Out) : withRange r s run = run R := by
  rw [withRange, h]

theorem withConfiguredRange_of_getElem? (h : s.ranges[r]? = some R) (hz : R.size ≠ 0) (run : RangeUnit → Out) :
    withConfiguredRange r s run = run R := by
  rw [withConfiguredRange, withRange_of_getElem? h, if_neg hz]

/-- RANGE_CFG with a legal interval (42_range_setup R462). -/
theorem exec_rangeCfg_of_legalInterval (h : s.ranges[r]? = some R)
    (hl : legalInterval s.stripLen (lowHalf s.latch.a.a0) (highHalf s.latch.a.a0) = true) :
    exec (.rangeCfg r) s = .next (s.setRange r
      { dropEffects R with offset := lowHalf s.latch.a.a0, size := highHalf s.latch.a.a0 }).finish :=
  (withRange_of_getElem? h _).trans (if_pos hl)

/-- RANGE_CLEAR of a range that owns the strip (42_range_setup R465). -/
theorem exec_rangeClear_of_ownsStrip (h : s.ranges[r]? = some R) (hz : R.size ≠ 0)
    (ho : R.offset = 0 ∧ R.size.toNat = s.stripLen) :
    exec (.rangeClear r) s = .next (s.setRange r (dropEffects R)).blackFrame.finish := by
  refine (withConfiguredRange_of_getElem? h hz _).trans ?_
  simp only [ownsStrip, decide_eq_true ho, if_true]

/-- RANGE_CLEAR of any other range (42_range_setup R465). -/
theorem exec_rangeClear_of_not_ownsStrip (h : s.ranges[r]? = some R) (hz : R.size ≠ 0)
    (ho : ¬ (R.offset = 0 ∧ R.size.toNat = s.stripLen)) :
    exec (.rangeClear r) s = .next (s.setRange r (dropEffects R)).finish := by
  refine (withConfiguredRange_of_getElem? h hz _).trans ?_
  simp only [ownsStrip, decide_eq_false ho, Bool.false_eq_true, if_false]

/-- RANGE_ADD_SNAKE on a configured range (42_range_setup R470). -/
theorem exec_rangeAddSnake_of_getElem? (dir : Dir) (h : s.ranges[r]? = some R) (hz : R.size ≠ 0) :
    exec (.rangeAddSnake r dir) s =
      .next (s.setRange r (addSnake (newSnake s.nowMs s.latch.a dir R.size) R)).finish :=
  withConfiguredRange_of_getElem? h hz _

/-- RANGE_ADD_PULSE on a configured range (42_range_setup R475). -/
theorem exec_rangeAddPulse_of_getElem? (h : s.ranges[r]? = some R) (hz : R.size ≠ 0) :
    exec (.rangeAddPulse r) s =
      .next (s.setRange r
        (addPulse { color := s.latch.a.a0, bk := bkReset s.nowMs s.latch.a.a3, level := 0 } R)).finish :=
  withConfiguredRange_of_getElem? h hz _

/-- RANGE_ADD_RANDOM with a legal count on a configured range (42_range_setup R480). -/
theorem exec_rangeAddRandom_of_count_le {count : Nat} (h : s.ranges[r]? = some R) (hz : R.size ≠ 0) (hc : count ≤ 8) :
    exec (.rangeAddRandom r count) s =
      .next (s.setRange r (addRandom (newRnd s.nowMs s.latch.a count) R)).finish :=
  (withConfiguredRange_of_getElem? h hz _).trans (if_pos (decide_eq_true hc))

end

/-! ### The black frame (42_range_setup R465) -/

section

variable {s : State}

theorem readPixel_blackFrame {i : Nat} (hw : Memory.wf s.mem = true) (hi : i < s.stripLen) :
    readPixel s.blackFrame.mem i = black := by
  rw [State.blackFrame_mem, readPixel_writePixels _ _ _ _ hw, if_pos (by simpa using hi)]
  simp [List.getD_eq_getElem?_getD, hi]

theorem get_blackFrame_outside {a : Nat} (hw : Memory.wf s.mem = true)
    (ha : a < pixelAddr 0 ∨ pixelAddr s.stripLen ≤ a) : Memory.get s.blackFrame.mem a = Memory.get s.mem a :=
  get_writePixels_outside _ _ _ _ hw (by simpa using ha)

end

/-! ### Registration (42_range_setup R457) -/

section

variable {R : RangeUnit}

/-- A full collection drops a further Snake. -/
theorem addSnake_of_full (sn : Snake) (h : R.nsnake.val = Config.snakeCap) : addSnake sn R = R :=
  dif_neg h.not_lt

/-- Slot `n` is the first free one when `n` Snakes are active. -/
theorem addSnake_of_nsnake_eq (sn : Snake) {n : Fin Config.snakeCap} (h : R.nsnake.val = n.val) :
    addSnake sn R = { R with snake := R.snake.set n.val sn, nsnake := n.succ } := by
  simp only [addSnake, h, dif_pos n.isLt]
  rfl

/-- A second Random effect is dropped. -/
theorem addRandom_of_active (x : Rnd) (h : R.rndAct = true) : addRandom x R = R := if_pos h

theorem addRandom_of_inactive (x : Rnd) (h : R.rndAct = false) :
    addRandom x R = { R with rnd := x, rndAct := true } := if_neg (by simp [h])

/-- The Snake of RANGE_ADD_SNAKE, on the numbers in the halves of its arguments (42_range_setup R470). -/
theorem newSnake_eq (now : Word) (a : Args) (dir : Dir) (size : Half) :
    newSnake now a dir size =
      { color := a.a0, start := BitVec.ofNat 16 (a.a1.toNat % 2 ^ 16), dir := dir
        len := BitVec.ofNat 16 (a.a1.toNat / 2 ^ 16), fade := BitVec.ofNat 16 (a.a2.toNat % 2 ^ 16)
        bk := bkReset now a.a3, head := BitVec.ofNat 16 (a.a1.toNat % 2 ^ 16 % size.toNat) } := by
  simp [newSnake, lowHalf_eq, highHalf_eq]

theorem count_newRnd (now : Word) (a : Args) {count : Nat} (hc : count ≤ Config.randHist) :
    (newRnd now a count).count.val = count :=
  Nat.mod_eq_of_lt (Nat.lt_succ_of_le hc)

end

/-! ### The statements -/

/-- Settles O19: the interval is legal on the numbers in the halves of `A[0]`. -/
theorem rangeCfgSetsTheInterval : Obligations.RangeCfgSetsTheInterval := by
  unfold Obligations.RangeCfgSetsTheInterval
  intro r s R hR off sz hsz hend
  have hl := (legalInterval_iff s.stripLen s.latch.a.a0).mpr ⟨hsz, hend⟩
  rw [exec_rangeCfg_of_legalInterval hR hl, lowHalf_eq, highHalf_eq]
  rfl

/-- Settles O20, by whether the range owns the strip: its memory is the black frame, or the one before. -/
theorem rangeClearDropsEffects : Obligations.RangeClearDropsEffects := by
  unfold Obligations.RangeClearDropsEffects
  intro r s R hR hz hw
  by_cases ho : R.offset = 0 ∧ R.size.toNat = s.stripLen
  · refine ⟨s.blackFrame.mem, exec_rangeClear_of_ownsStrip hR hz ho, fun _ => ⟨?_, ?_⟩, fun hn => absurd ho hn⟩
    · exact fun i hi => readPixel_blackFrame hw hi
    · exact fun a ha => get_blackFrame_outside hw ha
  · exact ⟨s.mem, exec_rangeClear_of_not_ownsStrip hR hz ho, fun h => absurd h ho, fun _ _ => rfl⟩

/-- Settles O21, by the two cases of a registration: a full collection, or a first free slot. -/
theorem addSnakeFillsTheNextSlot : Obligations.AddSnakeFillsTheNextSlot := by
  unfold Obligations.AddSnakeFillsTheNextSlot
  intro r dir s R hR hz
  refine ⟨_, exec_rangeAddSnake_of_getElem? dir hR hz, addSnake_of_full _, fun n hn => ?_⟩
  rw [addSnake_of_nsnake_eq _ hn, newSnake_eq]
  refine ⟨rfl, rfl, Vector.getElem_set_self _, fun k hk => ?_⟩
  exact Vector.getElem_set_ne n.isLt k.isLt fun h => hk (Fin.ext h.symm)

/-- Settles O23, by whether a Random effect is active. -/
theorem addRandomStartsEmpty : Obligations.AddRandomStartsEmpty := by
  unfold Obligations.AddRandomStartsEmpty
  intro r count s R hR hz hc
  refine ⟨_, exec_rangeAddRandom_of_count_le hR hz hc, addRandom_of_active _, fun hi => ?_⟩
  rw [addRandom_of_inactive _ hi]
  refine ⟨?_, rfl, rfl, rfl, count_newRnd _ _ hc, rfl, rfl, rfl, fun j => ?_⟩
  · rw [← hi]
  · exact Vector.getElem_replicate _

/-- Settles O22: the registration of a Pulse is the `if` of the statement. -/
theorem addPulseStartsOff : Obligations.AddPulseStartsOff := by
  unfold Obligations.AddPulseStartsOff
  intro r s R hR hz
  exact exec_rangeAddPulse_of_getElem? hR hz

end Sys2Proof.Machine

end

/-! ## Range update: poll, advance, compose, write and flush (43_range_update) -/

section

namespace Sys2Proof.Machine

open Sys2Proof

/-! ### Steps around a ring -/

section

variable {a b N : Nat}

/-- The steps from `b` up to `a` around a ring of `N`, taken from `b`, end at `a`. -/
theorem add_steps_mod (ha : a < N) (hb : b < N) : (b + (a + N - b) % N) % N = a := by
  rw [Nat.add_mod_mod, show b + (a + N - b) = a + N by omega, Nat.add_mod_right, Nat.mod_eq_of_lt ha]

theorem steps_mod_eq_zero_iff (ha : a < N) (hb : b < N) : (a + N - b) % N = 0 ↔ b = a := by
  constructor
  · intro h
    have hend := add_steps_mod ha hb
    rwa [h, Nat.add_zero, Nat.mod_eq_of_lt hb] at hend
  · rintro rfl
    rw [Nat.add_sub_cancel_left, Nat.mod_self]

/-- From anywhere, at most a turn of the ring leads to any slot. -/
theorem exists_steps_mod (ha : a < N) (b : Nat) : ∃ t < N, (b + t) % N = a := by
  have hN : 0 < N := Nat.zero_lt_of_lt ha
  exact ⟨_, Nat.mod_lt _ hN, (Nat.mod_add_mod b N _).symm.trans (add_steps_mod ha (Nat.mod_lt b hN))⟩

/-- `c` steps down from `a`, then `c` steps up again. -/
theorem sub_mod_add_mod (ha : a < N) (c : Nat) : ((a + N - c % N) % N + c) % N = a := by
  have hlt : c % N < N := Nat.mod_lt c (by omega)
  calc ((a + N - c % N) % N + c) % N
      = (a + N - c % N + c % N) % N := by rw [Nat.mod_add_mod, Nat.add_mod_mod]
    _ = a := by rw [Nat.sub_add_cancel (by omega), Nat.add_mod_right, Nat.mod_eq_of_lt ha]

end

/-! ### The Snake's head and distance (43_range_update R505, R506) -/

section

variable {sn : Snake} {N : Nat}

theorem snakeAdvance_setup (b N : Nat) (sn : Snake) : { snakeAdvance b N sn with head := sn.head } = sn := by
  unfold snakeAdvance
  split <;> rfl

theorem toNat_ofNat_mod (x : Nat) (hN : 0 < N) (h2 : N < 2 ^ 16) : (BitVec.ofNat 16 (x % N)).toNat = x % N :=
  (BitVec.toNat_ofNat _ _).trans (Nat.mod_eq_of_lt ((Nat.mod_lt x hN).trans h2))

theorem head_snakeAdvance_cw (b : Nat) (hd : sn.dir = .cw) (hN : 0 < N) (h2 : N < 2 ^ 16) :
    (snakeAdvance b N sn).head.toNat = (sn.head.toNat + b) % N := by
  simp only [snakeAdvance, hd, toNat_ofNat_mod _ hN h2, Nat.add_mod_mod]

theorem head_snakeAdvance_ccw (b : Nat) (hd : sn.dir = .ccw) (hN : 0 < N) (h2 : N < 2 ^ 16) :
    (snakeAdvance b N sn).head.toNat = (sn.head.toNat + N - b % N) % N := by
  simp only [snakeAdvance, hd, toNat_ofNat_mod _ hN h2]

theorem snakeDist_cw (i N : Nat) (hd : sn.dir = .cw) : snakeDist i N sn = (sn.head.toNat + N - i) % N := by
  rw [snakeDist, hd]

theorem snakeDist_ccw (i N : Nat) (hd : sn.dir = .ccw) : snakeDist i N sn = (i + N - sn.head.toNat) % N := by
  rw [snakeDist, hd]

theorem snakeDist_lt (i : Nat) (sn : Snake) (hN : 0 < N) : snakeDist i N sn < N := by
  unfold snakeDist
  split <;> exact Nat.mod_lt _ hN

end

/-! ### What a Snake and the Pulse add to a pixel (43_range_update R507, R508, R511) -/

section

variable {i N : Nat} {sn : Snake} (k : Chan)

/-- What a Snake adds to a channel of range pixel `i`: nothing beyond its trail. -/
def snakeAddend (i N : Nat) (sn : Snake) (k : Chan) : Nat :=
  let d := snakeDist i N sn
  if d < sn.len.toNat then weighted sn.color (snakeGamma d sn.fade.toNat N).1 (snakeGamma d sn.fade.toNat N).2 k else 0

theorem ch_snakeContrib (i N : Nat) (c : Color) (sn : Snake) :
    ch (snakeContrib i N c sn) k = ch c k + BitVec.ofNat 8 (snakeAddend i N sn k) := by
  simp only [snakeContrib, snakeAddend]
  split
  · exact ch_blend ..
  · exact (BitVec.add_zero _).symm

theorem snakeContrib_of_len_le (c : Color) (h : sn.len.toNat ≤ snakeDist i N sn) : snakeContrib i N c sn = c :=
  if_neg h.not_gt

/-- A faded pixel lies in a range of at least two pixels. -/
theorem fade_scale_pos (hi : i < N) (h0 : snakeDist i N sn ≠ 0) : 0 < 256 * (N - 1) := by
  have hlt := snakeDist_lt i sn (Nat.zero_lt_of_lt hi)
  omega

/-- The addend on numbers: full at the head, then faded by the distance (43_range_update R507). -/
theorem snakeAddend_eq (i N : Nat) (sn : Snake) :
    snakeAddend i N sn k =
      let d := snakeDist i N sn
      let gd := 256 * (N - 1)
      if d < sn.len.toNat then
        if d = 0 then (ch sn.color k).toNat
        else (2 * ((ch sn.color k).toNat * (gd - sn.fade.toNat * d)) + gd) / (2 * gd)
      else 0 := by
  simp only [snakeAddend, snakeGamma]
  by_cases h0 : snakeDist i N sn = 0
  · simp only [h0, if_true, weighted_self sn.color k Nat.one_pos]
  · simp only [h0, if_false, weighted, roundHalfUp]

theorem snakeAddend_unfaded (hf : sn.fade = 0) (hi : i < N) :
    snakeAddend i N sn k = if snakeDist i N sn < sn.len.toNat then (ch sn.color k).toNat else 0 := by
  simp only [snakeAddend, snakeGamma, hf]
  by_cases h0 : snakeDist i N sn = 0
  · simp only [h0, if_true, weighted_self sn.color k Nat.one_pos]
  · simp only [h0, if_false, BitVec.ofNat_eq_ofNat, BitVec.toNat_ofNat, Nat.zero_mod, Nat.zero_mul, Nat.sub_zero,
      weighted_self sn.color k (fade_scale_pos hi h0)]

end

/-! ### The active slots and what they add up to -/

section

variable {α : Type} {n : Nat}

/-- The active instances add up slot by slot, the inactive slots adding nothing (10_state R152). -/
theorem sum_map_activeSlots (m : Nat) (v : Vector α n) (f : α → Nat) :
    ((activeSlots m v).map f).sum = ∑ k : Fin n, if k.val < m then f v[k] else 0 := by
  have hlist : v.toList.map f = List.ofFn fun k : Fin n => f v[k] := List.ext_getElem (by simp) (by simp)
  rw [activeSlots, List.map_take, hlist, List.sum_take_ofFn, Finset.sum_filter]

theorem any_activeSlots (m : Nat) (v : Vector α n) (p : α → Bool) :
    (activeSlots m v).any p = true ↔ ∃ k : Fin n, k.val < m ∧ p v[k] = true := by
  simp [mem_activeSlots, Fin.exists_iff]

end

/-! ### The composed pixel (43_range_update R514, R515, R516) -/

section

variable (k : Chan) (R : RangeUnit) (i : Nat)

/-- What the Pulse of a range adds to a channel of every pixel: its colour while it is on (43_range_update R511). -/
def pulseAddend (R : RangeUnit) (k : Chan) : Nat :=
  if R.pulseAct = true ∧ R.pulse.level ≠ 0 then (ch R.pulse.color k).toNat else 0

/-- The Snakes add up in slot order. -/
theorem ch_foldl_snakeContrib (N : Nat) (sns : List Snake) (c : Color) :
    ch (sns.foldl (snakeContrib i N) c) k =
      ch c k + BitVec.ofNat 8 ((sns.map fun sn => snakeAddend i N sn k).sum) := by
  induction sns generalizing c with
  | nil => exact (BitVec.add_zero _).symm
  | cons sn sns ih =>
    rw [List.foldl_cons, ih, ch_snakeContrib, List.map_cons, List.sum_cons, BitVec.ofNat_add, BitVec.add_assoc]

theorem ch_pulseContrib (c : Color) :
    ch (if R.pulseAct then pulseContrib c R.pulse else c) k = ch c k + BitVec.ofNat 8 (pulseAddend R k) := by
  unfold pulseContrib pulseAddend
  by_cases hp : R.pulseAct = true
  · by_cases hl : R.pulse.level ≠ 0
    · rw [if_pos hp, if_pos hl, if_pos ⟨hp, hl⟩, ch_blend_self _ _ _ Nat.one_pos, BitVec.ofNat_toNat, BitVec.setWidth_eq]
    · rw [if_pos hp, if_neg hl, if_neg fun h => hl h.2, BitVec.add_zero]
  · rw [if_neg hp, if_neg fun h => hp h.1, BitVec.add_zero]

/-- The Random effect has the last word on what the Snakes and the Pulse compose. -/
theorem compose_eq :
    compose R i = if R.rndAct then randomContrib i (compose { R with rndAct := false } i) R.rnd
      else compose { R with rndAct := false } i := rfl

/-- Without a Random effect a pixel is the Snakes' sum, then the Pulse (43_range_update R515). -/
theorem compose_without_random :
    compose { R with rndAct := false } i =
      (let c := (activeSlots R.nsnake.val R.snake).foldl (snakeContrib i R.size.toNat) black
       if R.pulseAct then pulseContrib c R.pulse else c) := rfl

variable {R}

/-- An absent or an inert Random effect leaves the pixel as it is (43_range_update R513). -/
theorem compose_of_no_random (h : R.rndAct = false ∨ R.rnd.count.val = 0) :
    compose R i = compose { R with rndAct := false } i := by
  rw [compose_eq]
  rcases h with h | h
  · simp [h]
  · simp [randomContrib, h]

theorem toNat_ch_compose (h : R.rndAct = false ∨ R.rnd.count.val = 0) :
    (ch (compose R i) k).toNat =
      ((∑ j : Fin 4, if j.val < R.nsnake.val then snakeAddend i R.size.toNat R.snake[j] k else 0) + pulseAddend R k)
        % 256 := by
  have hsum := sum_map_activeSlots R.nsnake.val R.snake fun sn => snakeAddend i R.size.toNat sn k
  rw [compose_of_no_random i h, compose_without_random, ch_pulseContrib, ch_foldl_snakeContrib, ch_black, hsum, zero_add,
    BitVec.toNat_add, BitVec.toNat_ofNat, BitVec.toNat_ofNat, ← Nat.add_mod]

theorem lit_iff (x : Rnd) : lit i x = true ↔ ∃ j : Fin 8, j.val < x.len.val ∧ x.hist[j].toNat = i := by
  rw [lit, any_activeSlots]
  simp

/-- The overwrite of a Random effect that is not inert (43_range_update R514). -/
theorem compose_of_random (h : R.rndAct = true) (hc : R.rnd.count.val ≠ 0) :
    compose R i = if lit i R.rnd then R.rnd.fg else R.rnd.bg := by
  rw [compose_eq, if_pos h, randomContrib, if_neg hc]
  rfl

end

/-! ### The Random ring (43_range_update R512) -/

/-- The values written in order into ring slots `base`, `base + 1`, ... modulo `K`. -/
def writeRing (K : Nat) : Nat → List Half → List Half → List Half
  | _, [], ring => ring
  | base, v :: vs, ring => writeRing K (base + 1) vs (ring.set (base % K) v)

section

variable (K : Nat)

/-- The insertions one at a time: each component of the ring on its own. -/
theorem foldl_insertDraw (vs ring : List Half) (base len : Nat) (hlen : len ≤ K) :
    vs.foldl (insertDraw K) (ring, base % K, len) =
      (writeRing K base vs ring, (base + vs.length) % K, min (len + vs.length) K) := by
  induction vs generalizing ring base len with
  | nil => simp [writeRing, hlen]
  | cons v vs ih =>
    rw [List.foldl_cons, insertDraw, Nat.mod_add_mod, ih _ _ _ (Nat.min_le_right _ _), List.length_cons]
    have hcur : base + 1 + vs.length = base + (vs.length + 1) := by omega
    have hmin : min (min (len + 1) K + vs.length) K = min (len + (vs.length + 1)) K := by omega
    rw [hcur, hmin]
    rfl

/-- Draws the environment has fixed are the values written, and are used up (10_state R106). -/
theorem drawInto_of_answers {N : Nat} (ws rest : List Nat) (base : Nat) (hist : Vector Half Config.randHist) (o : Oracle)
    (hws : ∀ w ∈ ws, w < N) (ho : o.answers = ws ++ rest) :
    (drawInto K N ws.length base hist o).1.toList = writeRing K base (ws.map (BitVec.ofNat 16)) hist.toList ∧
      (drawInto K N ws.length base hist o).2 = { o with answers := rest } := by
  induction ws generalizing base hist o with
  | nil =>
    subst ho
    exact ⟨rfl, rfl⟩
  | cons w ws ih =>
    have hw : w < N := hws w List.mem_cons_self
    have hdraw : draw N o = (w, { o with answers := ws ++ rest }) := by
      rw [draw, ho]
      exact congrArg (·, _) (Nat.mod_eq_of_lt hw)
    have hrest := ih (base + 1) (hist.setIfInBounds (base % K) (BitVec.ofNat 16 w)) { o with answers := ws ++ rest }
      (fun v hv => hws v (List.mem_cons_of_mem _ hv)) rfl
    simpa [drawInto, hdraw, writeRing] using hrest

variable {K}

/-- A slot that is still to be written may hold anything. -/
theorem writeRing_set (ws ring : List Half) (base : Nat) {p : Nat} (v : Half)
    (hp : ∃ t < ws.length, (base + t) % K = p) : writeRing K base ws (ring.set p v) = writeRing K base ws ring := by
  induction ws generalizing base ring with
  | nil =>
    obtain ⟨t, ht, _⟩ := hp
    exact absurd ht (Nat.not_lt_zero t)
  | cons w ws ih =>
    rw [writeRing, writeRing]
    by_cases hb : base % K = p
    · rw [hb, List.set_set]
    · obtain ⟨t, ht, he⟩ := hp
      obtain _ | t := t
      · exact absurd he hb
      · rw [List.set_comm _ _ (Ne.symm hb)]
        exact ih _ _ ⟨t, Nat.lt_of_succ_lt_succ ht, by rw [← he]; congr 1; omega⟩

/-- A full turn of the ring writes every slot: what was written before it is lost. -/
theorem writeRing_append_of_full (us ws ring : List Half) (base : Nat) (hK : 0 < K) (hfull : us = [] ∨ ws.length = K) :
    writeRing K base (us ++ ws) ring = writeRing K (base + us.length) ws ring := by
  induction us generalizing base ring with
  | nil => rfl
  | cons u us ih =>
    have hws : ws.length = K := hfull.resolve_left (List.cons_ne_nil u us)
    rw [List.cons_append, writeRing, ih _ _ (.inr hws), List.length_cons, Nat.add_right_comm]
    exact writeRing_set ws ring _ u (hws ▸ exists_steps_mod (Nat.mod_lt base hK) _)

/-- Only the last `K` values are still there (43_range_update R512). -/
theorem writeRing_drop (vs ring : List Half) (base : Nat) (hK : 0 < K) :
    writeRing K base vs ring = writeRing K (base + (vs.length - K)) (vs.drop (vs.length - K)) ring := by
  have hfull : vs.take (vs.length - K) = [] ∨ (vs.drop (vs.length - K)).length = K := by
    rw [List.length_drop, List.take_eq_nil_iff]
    omega
  have happend := writeRing_append_of_full _ _ ring base hK hfull
  rwa [List.take_append_drop, List.length_take_of_le (Nat.sub_le _ _)] at happend

end

/-! ### The Random advance (43_range_update R512, R513) -/

section

variable (b N : Nat) {x : Rnd} (o : Oracle)

variable (x) in
/-- An advance changes the ring, its cursor and its length only. -/
theorem randomAdvance_setup :
    { (randomAdvance b N x o).1 with hist := x.hist, cur := x.cur, len := x.len } = x := by
  unfold randomAdvance
  split <;> rfl

theorem randomAdvance_keeps :
    (randomAdvance b N x o).1.bk = x.bk ∧ (randomAdvance b N x o).1.fg = x.fg ∧
      (randomAdvance b N x o).1.bg = x.bg ∧ (randomAdvance b N x o).1.count = x.count := by
  unfold randomAdvance
  split <;> exact ⟨rfl, rfl, rfl, rfl⟩

theorem randomAdvance_of_count_zero (h : x.count.val = 0) : randomAdvance b N x o = (x, o) := dif_pos h

/-- The advance of a Random effect that is not inert: only the last turn of its draws is made. -/
theorem randomAdvance_ring (h : x.count.val ≠ 0) :
    let m := min b x.count.val
    let drawn := drawInto x.count.val N m (x.cur.val + (b - m)) x.hist o
    let out := randomAdvance b N x o
    (out.1.hist.toList, out.1.cur.val, out.1.len.val) =
        (drawn.1.toList, (x.cur.val + b) % x.count.val, min (x.len.val + b) x.count.val) ∧
      out.2 = drawn.2 := by
  rw [randomAdvance, dif_neg h]
  exact ⟨rfl, rfl⟩

end

/-! ### The polled and the advanced range (43_range_update R501, R503, R510) -/

section

variable (now : Word) {R : RangeUnit} (o : Oracle)

theorem pollRange_snake (k : Fin 4) :
    (pollRange now R).snake[k] = if k.val < R.nsnake.val then R.snake[k].polled now else R.snake[k] := by
  rw [Fin.getElem_fin, pollRange, getElem_mapFirst]
  rfl

theorem advanceRange_snake (k : Fin 4) :
    (advanceRange now R o).1.snake[k] =
      if k.val < R.nsnake.val then
        snakeAdvance (beats now R.snake[k].bk).toNat R.size.toNat (R.snake[k].polled now)
      else R.snake[k] := by
  rw [Fin.getElem_fin, advanceRange, getElem_mapFirst]
  rfl

theorem toNat_level_pulseAdvance (b : Nat) (p : Pulse) :
    (pulseAdvance b p).level.toNat = (p.level.toNat + b) % 2 :=
  BitVec.toNat_ofNat _ _

theorem advanceRange_pulse_of_active (h : R.pulseAct = true) :
    (advanceRange now R o).1.pulse = pulseAdvance (beats now R.pulse.bk).toNat (R.pulse.polled now) := if_pos h

theorem advanceRange_pulse_of_inactive (h : R.pulseAct = false) : (advanceRange now R o).1.pulse = R.pulse :=
  if_neg (by simp [h])

theorem advanceRange_rnd_of_active (h : R.rndAct = true) :
    ((advanceRange now R o).1.rnd, (advanceRange now R o).2) =
      randomAdvance (beats now R.rnd.bk).toNat R.size.toNat (R.rnd.polled now) o := if_pos h

theorem advanceRange_rnd_of_inactive (h : R.rndAct = false) :
    ((advanceRange now R o).1.rnd, (advanceRange now R o).2) = (R.rnd, o) := if_neg (by simp [h])

end

/-! ### RANGE_UPDATE on a configured range (43_range_update R500, R502) -/

section

variable {r : Nat} {s : State} {R : RangeUnit}

/-- Some active instance reports a beat (43_range_update R502). -/
theorem rangeHasBeat_iff (now : Word) (R : RangeUnit) :
    rangeHasBeat now R = true ↔
      (∃ k : Fin 4, k.val < R.nsnake.val ∧ beats now R.snake[k].bk ≠ 0) ∨
        (R.pulseAct = true ∧ beats now R.pulse.bk ≠ 0) ∨ (R.rndAct = true ∧ beats now R.rnd.bk ≠ 0) := by
  simp only [rangeHasBeat, Bool.or_eq_true, Bool.and_eq_true, bne_iff_ne, any_activeSlots, or_assoc]

theorem exec_rangeUpdate_of_no_beat (h : s.ranges[r]? = some R) (hz : R.size ≠ 0)
    (hb : rangeHasBeat s.nowMs R = false) :
    exec (.rangeUpdate r) s = .next (s.setRange r (pollRange s.nowMs R)).finish := by
  refine (withConfiguredRange_of_getElem? h hz _).trans (if_neg ?_)
  rw [hb]
  exact Bool.false_ne_true

/-- The state a RANGE_UPDATE with a beat leaves, before its ending (43_range_update R500). -/
def rangeUpdated (r : Nat) (R : RangeUnit) (s : State) : State :=
  let adv := advanceRange s.nowMs R s.rng
  { s with ranges := s.ranges.set r adv.1, mem := writePixels s.mem R.offset.toNat (composeAll adv.1), rng := adv.2
           writeCnt := s.writeCnt + 1 }

theorem exec_rangeUpdate_of_beat (h : s.ranges[r]? = some R) (hz : R.size ≠ 0)
    (hb : rangeHasBeat s.nowMs R = true) :
    exec (.rangeUpdate r) s = .next (rangeUpdated r R s).showUnlessDryRun :=
  (withConfiguredRange_of_getElem? h hz _).trans (if_pos hb)

/-- The flush of an update leaves its ranges, count of writes and draws alone (43_range_update R521). -/
theorem showUnlessDryRun_keeps (s : State) :
    s.showUnlessDryRun.ranges = s.ranges ∧ s.showUnlessDryRun.writeCnt = s.writeCnt ∧
      s.showUnlessDryRun.rng = s.rng := by
  unfold State.showUnlessDryRun
  split <;> exact ⟨rfl, rfl, rfl⟩

end

/-! ### The frame after an update (43_range_update R520) -/

section

variable {m : Memory} (hw : Memory.wf m = true) (R : RangeUnit) (i : Nat)
include hw

theorem readPixel_composeAll {j : Nat} (hj : j < R.size.toNat) :
    readPixel (writePixels m i (composeAll R)) (i + j) = compose R j := by
  rw [readPixel_writePixels _ _ _ _ hw, length_composeAll, if_pos (by omega), Nat.add_sub_cancel_left, composeAll]
  simp [List.getD_eq_getElem?_getD, hj]

theorem get_composeAll_outside {a : Nat} (ha : a < pixelAddr i ∨ pixelAddr (i + R.size.toNat) ≤ a) :
    Memory.get (writePixels m i (composeAll R)) a = Memory.get m a :=
  get_writePixels_outside _ _ _ _ hw (by rwa [length_composeAll])

end

/-! ### The statements -/

/-- Settles O24: with no beat the update is its polls. -/
theorem throttledUpdateOnlyPolls : Obligations.ThrottledUpdateOnlyPolls := by
  unfold Obligations.ThrottledUpdateOnlyPolls
  intro r s R hR hz hsnake hpulse hrnd
  have hbeat : rangeHasBeat s.nowMs R = false := by
    rw [Bool.eq_false_iff, ne_eq, rangeHasBeat_iff]
    rintro (⟨k, hk, hb⟩ | ⟨ha, hb⟩ | ⟨ha, hb⟩)
    · exact hb (hsnake k hk)
    · exact hb (hpulse ha)
    · exact hb (hrnd ha)
  exact ⟨_, exec_rangeUpdate_of_no_beat hR hz hbeat, rfl, pollRange_snake s.nowMs, rfl, rfl⟩

/-- Settles O25, by the frame after a run of pixel writes; the mode decides only the ending. -/
theorem updateWritesTheComposedRange : Obligations.UpdateWritesTheComposedRange := by
  unfold Obligations.UpdateWritesTheComposedRange
  intro r s R hR hz hw hbeat
  have hexec := exec_rangeUpdate_of_beat hR hz ((rangeHasBeat_iff s.nowMs R).mpr hbeat)
  refine ⟨_, (rangeUpdated r R s).mem, _, rfl, ?_, fun i hi => ?_, fun a ha => ?_⟩
  · rw [hexec, State.showUnlessDryRun]
    rfl
  · exact readPixel_composeAll hw (advanceRange s.nowMs R s.rng).1 R.offset.toNat hi
  · exact get_composeAll_outside hw (advanceRange s.nowMs R s.rng).1 R.offset.toNat ha

/-- Settles O26, by each kind of effect, active or not. -/
theorem updateAdvancesEachByItsOwnBeats : Obligations.UpdateAdvancesEachByItsOwnBeats := by
  unfold Obligations.UpdateAdvancesEachByItsOwnBeats
  intro now R o
  refine ⟨rfl, advanceRange_snake now o, fun hp => ?_, advanceRange_pulse_of_inactive now o, fun hr => ?_,
    fun hr => Prod.mk.inj (advanceRange_rnd_of_inactive now o hr)⟩
  · rw [advanceRange_pulse_of_active now o hp]
    exact ⟨rfl, rfl, toNat_level_pulseAdvance _ _⟩
  · have hadv := advanceRange_rnd_of_active now o hr
    have hkeeps := randomAdvance_keeps (beats now R.rnd.bk).toNat R.size.toNat (x := R.rnd.polled now) o
    rw [← hadv] at hkeeps
    exact ⟨hadv, hkeeps⟩

/-- Settles O27, by the direction: the steps up, or steps down that as many steps up undo. -/
theorem snakeHeadMovesByTheBeats : Obligations.SnakeHeadMovesByTheBeats := by
  unfold Obligations.SnakeHeadMovesByTheBeats
  intro sn b N hN h2 hhead
  refine ⟨snakeAdvance_lt b N sn hN h2, snakeAdvance_setup b N sn, fun hd => head_snakeAdvance_cw b hd hN h2, ?_⟩
  intro hd
  rw [head_snakeAdvance_ccw b hd hN h2]
  exact sub_mod_add_mod hhead b

/-- Settles O28, by the direction: the distance counts the steps around the range from the pixel up to the head, or from the
head up to the pixel. -/
theorem snakeDistanceCountsSteps : Obligations.SnakeDistanceCountsSteps := by
  unfold Obligations.SnakeDistanceCountsSteps
  intro sn i N hi hhead
  have hlt : snakeDist i N sn < N := snakeDist_lt i sn (by omega)
  cases hd : sn.dir with
  | cw =>
    have hdist := snakeDist_cw i N hd
    exact ⟨hlt, hdist ▸ steps_mod_eq_zero_iff hhead hi, fun _ => hdist ▸ add_steps_mod hhead hi, nofun⟩
  | ccw =>
    have hdist := snakeDist_ccw i N hd
    exact ⟨hlt, hdist ▸ (steps_mod_eq_zero_iff hi hhead).trans eq_comm, nofun, fun _ => hdist ▸ add_steps_mod hi hhead⟩

/-- Settles O29, by the place of the pixel: beyond the trail, at the head, or along the trail. -/
theorem snakeAddsItsFadedTrail : Obligations.SnakeAddsItsFadedTrail := by
  unfold Obligations.SnakeAddsItsFadedTrail
  intro sn c i N hi _
  refine ⟨snakeContrib_of_len_le c, fun hlen h0 k => ?_, fun hlen h0 => ⟨fade_scale_pos hi h0, fun k => ?_⟩⟩
  · rw [ch_snakeContrib, snakeAddend_eq, if_pos hlen, if_pos h0, BitVec.ofNat_toNat, BitVec.setWidth_eq]
  · rw [ch_snakeContrib, snakeAddend_eq, if_pos hlen, if_neg h0, BitVec.toNat_add, BitVec.toNat_ofNat, Nat.add_mod_mod]

/-- Settles O30, by the sum over the slots: each adds `snakeAddend`, and a lone unfaded Snake adds its colour or nothing. -/
theorem composeSumsSnakesAndPulse : Obligations.ComposeSumsSnakesAndPulse := by
  unfold Obligations.ComposeSumsSnakesAndPulse
  constructor
  · intro R i hr N addend pulse c
    have haddend (k : Fin 4) :
        (if k.val < R.nsnake.val then snakeAddend i N R.snake[k] c else 0) = addend k c := by
      rw [snakeAddend_eq]
      exact (ite_and ..).symm
    rw [toNat_ch_compose c i hr, Finset.sum_congr rfl fun k _ => haddend k, Fin.sum_univ_four]
    rfl
  · intro R i hn hp hr hf hi _
    have hsum (c : Chan) :
        (∑ k : Fin 4, if k.val < R.nsnake.val then snakeAddend i R.size.toNat R.snake[k] c else 0) =
          snakeAddend i R.size.toNat R.snake[0] c := by
      simp [hn]
    have hpulse (c : Chan) : pulseAddend R c = 0 := if_neg (by simp [hp])
    refine colour_ext fun c => BitVec.eq_of_toNat_eq ?_
    rw [toNat_ch_compose c i (.inl hr), hsum, hpulse, snakeAddend_unfaded c hf hi, Nat.add_zero]
    split
    · exact Nat.mod_eq_of_lt (ch _ c).isLt
    · exact congrArg BitVec.toNat (ch_black c).symm

/-- Settles O31: one at a time, the insertions write the ring in order, and the advance makes the last turn of them. -/
theorem randomAdvanceIsSequentialInsertion : Obligations.RandomAdvanceIsSequentialInsertion := by
  unfold Obligations.RandomAdvanceIsSequentialInsertion
  intro x o N vs rest _ hvs hcount hlen hcur ho
  have hmade : (vs.drop (vs.length - x.count.val)).length = min vs.length x.count.val := by
    rw [List.length_drop]
    omega
  have hskip : vs.length - min vs.length x.count.val = vs.length - x.count.val := by omega
  obtain ⟨hring, hrng⟩ := randomAdvance_ring vs.length N o hcount
  obtain ⟨hhist, hrest⟩ := drawInto_of_answers x.count.val _ rest (x.cur.val + (vs.length - x.count.val)) x.hist o
    (fun v hv => hvs v (List.mem_of_mem_drop hv)) ho
  rw [hskip, ← hmade] at hring hrng
  have hseq := foldl_insertDraw x.count.val (vs.map (BitVec.ofNat 16)) x.hist.toList x.cur.val x.len.val hlen
  rw [writeRing_drop _ _ _ (Nat.pos_of_ne_zero hcount), Nat.mod_eq_of_lt hcur, List.length_map, ← List.map_drop,
    ← hhist] at hseq
  exact ⟨hring.trans hseq.symm, hrng.trans hrest, randomAdvance_setup vs.length N x o⟩

/-- Settles O32: the beat of an inert instance is a beat of the range, and its advance changes nothing and draws nothing. -/
theorem inertRandomStillTriggers : Obligations.InertRandomStillTriggers := by
  unfold Obligations.InertRandomStillTriggers
  intro r s R hR hz ha hc hb
  have hbeat := (rangeHasBeat_iff s.nowMs R).mpr (.inr (.inr ⟨ha, hb⟩))
  obtain ⟨hranges, hcount, hrng⟩ := showUnlessDryRun_keeps (rangeUpdated r R s)
  obtain ⟨hrnd, ho⟩ := Prod.mk.inj ((advanceRange_rnd_of_active s.nowMs s.rng ha).trans
    (randomAdvance_of_count_zero _ _ (x := R.rnd.polled s.nowMs) s.rng hc))
  exact ⟨⟨_, _, exec_rangeUpdate_of_beat hR hz hbeat, hranges, hcount, hrng.trans ho, hrnd⟩,
    fun i => compose_of_no_random i (.inr hc)⟩

/-- Settles O33, by whether the ring holds the index of the pixel. -/
theorem randomOverwritesTheRange : Obligations.RandomOverwritesTheRange := by
  unfold Obligations.RandomOverwritesTheRange
  intro R i ha hc
  rw [compose_of_random i ha hc]
  refine ⟨fun h => if_pos ((lit_iff i R.rnd).mpr h), fun h => if_neg fun hlit => ?_⟩
  obtain ⟨j, hj, he⟩ := (lit_iff i R.rnd).mp hlit
  exact h j hj he

end Sys2Proof.Machine

end

/-! ## The Single-Pixel Controller: registration, patterns and update (44_single_pixel) -/

section

namespace Sys2Proof.Machine

open Sys2Proof

/-! ### Patterns (44_single_pixel R561-R564) -/

section

variable (now : Word) (p : Pattern) (c : Color)

/-- Only a Blink and a Pulse-wave have a beat (44_single_pixel R561). -/
theorem patBeats_eq : patBeats now p = if p.kind = .blink ∨ p.kind = .pwave then beats now p.bk else 0 := by
  cases hk : p.kind <;> simp [patBeats, hk]

/-- A poll changes the BeatKeeper of a Blink or a Pulse-wave (44_single_pixel R561). -/
theorem patPolled_eq : patPolled now p =
    if p.kind = .blink ∨ p.kind = .pwave then { p with bk := polled now p.bk } else p := by
  cases hk : p.kind <;> simp [patPolled, hk]

/-- A pattern polled and advanced by its own beats (44_single_pixel R561, R562). -/
theorem patAdvance_patPolled :
    patAdvance (patBeats now p).toNat (patPolled now p) =
      if p.kind = .blink then
        { p with bk := polled now p.bk, phase := BitVec.ofNat 12 ((p.phase.toNat + (beats now p.bk).toNat) % 2) }
      else if p.kind = .pwave then
        { p with
          bk := polled now p.bk
          phase := BitVec.ofNat 12 ((p.phase.toNat + (beats now p.bk).toNat) % (2 * p.half.toNat)) }
      else p := by
  cases hk : p.kind <;> simp [patBeats_eq, patPolled_eq, patAdvance, hk]

variable {p}

theorem patContrib_of_solid (h : p.kind = .solid) : patContrib c p = p.colA := by
  simp only [patContrib, h, overwrite]

theorem patContrib_of_blink (h : p.kind = .blink) : patContrib c p = if p.phase = 0 then p.colA else p.colB := by
  simp only [patContrib, h, overwrite]

theorem patContrib_of_pwave (h : p.kind = .pwave) :
    patContrib c p = scale c (tri p.phase.toNat p.half.toNat) p.half.toNat := by
  simp only [patContrib, h]

end

/-! ### The triangular envelope (44_single_pixel R564) -/

section

variable {q H : Nat}

theorem tri_of_le (h : q ≤ H) : tri q H = q := if_pos h

theorem tri_add_of_lt (h : H < q) (hq : q < 2 * H) : tri q H + q = 2 * H := by
  rw [tri, if_neg h.not_ge, Nat.sub_add_cancel hq.le]

theorem tri_le (hq : q < 2 * H) : tri q H ≤ H := by
  rcases le_or_gt q H with h | h
  · exact (tri_of_le h).trans_le h
  · have := tri_add_of_lt h hq
    omega

end

/-! ### Registration (44_single_pixel R550) -/

section

variable {S : SpcUnit} (p : Pattern)

/-- A full unit drops a further pattern. -/
theorem addPattern_of_full (h : S.npat.val = Config.spcPatCap) : addPattern p S = S :=
  dif_neg h.not_lt

/-- Slot `n` is the first free one when `n` patterns are active. -/
theorem addPattern_of_npat_eq {n : Fin Config.spcPatCap} (h : S.npat.val = n.val) :
    addPattern p S = { S with pat := S.pat.set n.val p, npat := n.succ } := by
  simp only [addPattern, h, dif_pos n.isLt]
  rfl

end

/-! ### The polled, the advanced and the composed unit (44_single_pixel R560, R565) -/

section

variable (now : Word) {S : SpcUnit}

/-- Some active Blink or Pulse-wave reports a beat (44_single_pixel R560). -/
theorem spcHasBeat_iff :
    spcHasBeat now S = true ↔
      ∃ j : Fin 2, j.val < S.npat.val ∧ (S.pat[j].kind = .blink ∨ S.pat[j].kind = .pwave) ∧
        beats now S.pat[j].bk ≠ 0 := by
  simp only [spcHasBeat, any_activeSlots, bne_iff_ne, patBeats_eq, ne_eq, ite_eq_right_iff, Classical.not_imp]

theorem pollSpc_pat (j : Fin 2) :
    (pollSpc now S).pat[j] =
      if j.val < S.npat.val ∧ (S.pat[j].kind = .blink ∨ S.pat[j].kind = .pwave) then
        { S.pat[j] with bk := polled now S.pat[j].bk }
      else S.pat[j] := by
  rw [Fin.getElem_fin, pollSpc, getElem_mapFirst, patPolled_eq, ite_and]
  rfl

theorem advanceSpc_pat (j : Fin 2) :
    (advanceSpc now S).pat[j] =
      if j.val < S.npat.val then patAdvance (patBeats now S.pat[j]).toNat (patPolled now S.pat[j]) else S.pat[j] := by
  rw [Fin.getElem_fin, advanceSpc, getElem_mapFirst]
  rfl

theorem activeSlots_zero {α : Type} {n : Nat} (v : Vector α n) : activeSlots 0 v = [] := rfl

/-- One more active instance stands behind the others (10_state R152, R160). -/
theorem activeSlots_succ {α : Type} {n m : Nat} (v : Vector α n) (h : m < n) :
    activeSlots (m + 1) v = activeSlots m v ++ [v[m]] := by
  simp [activeSlots, List.take_succ_eq_append_getElem, h]

theorem composeSpc_of_one (h : S.npat.val = 1) : composeSpc S = patContrib black S.pat[0] := by
  rw [composeSpc, h, activeSlots_succ _ (by decide), activeSlots_zero]
  rfl

theorem composeSpc_of_two (h : S.npat.val = 2) :
    composeSpc S = patContrib (patContrib black S.pat[0]) S.pat[1] := by
  rw [composeSpc, h, activeSlots_succ _ (by decide), activeSlots_succ _ (by decide), activeSlots_zero]
  rfl

end

/-! ### The commands on a unit that exists (30_encoding R311, R317) -/

section

variable {u : Nat} {s : State} {S : SpcUnit}

theorem withSpc_of_getElem? (h : s.spc[u]? = some S) (run : SpcUnit → Out) : withSpc u s run = run S := by
  rw [withSpc, h]

/-- SPC_CLEAR (44_single_pixel R551). -/
theorem exec_spcClear_of_getElem? (h : s.spc[u]? = some S) :
    exec (.spcClear u) s = .next (s.setSpc u { S with npat := 0, pixel := black }).finish :=
  withSpc_of_getElem? h _

/-- SPC_ADD_SOLID (44_single_pixel R553). -/
theorem exec_spcAddSolid_of_getElem? (h : s.spc[u]? = some S) :
    exec (.spcAddSolid u) s =
      .next (s.setSpc u (addPattern
        { kind := .solid, colA := s.latch.a.a0, colB := 0, half := 0, bk := bkReset s.nowMs 0, phase := 0 } S)).finish :=
  withSpc_of_getElem? h _

/-- SPC_ADD_BLINK (44_single_pixel R555). -/
theorem exec_spcAddBlink_of_getElem? (h : s.spc[u]? = some S) :
    exec (.spcAddBlink u) s =
      .next (s.setSpc u (addPattern
        { kind := .blink, colA := s.latch.a.a0, colB := s.latch.a.a1, half := 0
          bk := bkReset s.nowMs s.latch.a.a3, phase := 0 } S)).finish :=
  withSpc_of_getElem? h _

/-- SPC_ADD_PWAVE with a legal half (44_single_pixel R557). -/
theorem exec_spcAddPwave_of_half_ne_zero {half : Nat} (h : s.spc[u]? = some S) (hh : half ≠ 0) :
    exec (.spcAddPwave u half) s =
      .next (s.setSpc u (addPattern
        { kind := .pwave, colA := 0, colB := 0, half := BitVec.ofNat 11 half
          bk := bkReset s.nowMs Config.pwaveTickMs, phase := 0 } S)).finish :=
  (withSpc_of_getElem? h _).trans (if_pos (decide_eq_true hh))

theorem exec_spcUpdate_of_no_beat (h : s.spc[u]? = some S) (hb : spcHasBeat s.nowMs S = false) :
    exec (.spcUpdate u) s = .next (s.setSpc u (pollSpc s.nowMs S)).finish := by
  refine (withSpc_of_getElem? h _).trans (if_neg ?_)
  rw [hb]
  exact Bool.false_ne_true

/-- The unit that an SPC_UPDATE with a beat leaves, before its ending (44_single_pixel R560). -/
def spcUpdated (now : Word) (S : SpcUnit) : SpcUnit :=
  { advanceSpc now S with pixel := composeSpc (advanceSpc now S) }

theorem exec_spcUpdate_of_beat (h : s.spc[u]? = some S) (hb : spcHasBeat s.nowMs S = true) :
    exec (.spcUpdate u) s = .next (s.spcShowUnlessDryRun u (spcUpdated s.nowMs S)) :=
  (withSpc_of_getElem? h _).trans (if_pos hb)

end

/-! ### The statements -/

/-- Settles O36: each of the three commands registers its pattern, and a registration finds a full unit or a first free
slot. -/
theorem addPatternFillsTheNextSlot : Obligations.AddPatternFillsTheNextSlot := by
  unfold Obligations.AddPatternFillsTheNextSlot
  intro u i p s S hS hcommand
  have hexec : exec i s = .next (s.setSpc u (addPattern p S)).finish := by
    rcases hcommand with ⟨rfl, rfl⟩ | ⟨rfl, rfl⟩ | ⟨half, hhalf, rfl, rfl⟩
    · exact exec_spcAddSolid_of_getElem? hS
    · exact exec_spcAddBlink_of_getElem? hS
    · exact exec_spcAddPwave_of_half_ne_zero hS hhalf
  refine ⟨_, hexec, addPattern_of_full p, fun n hn => ?_⟩
  rw [addPattern_of_npat_eq p hn]
  refine ⟨rfl, rfl, Vector.getElem_set_self _, fun k hk => ?_⟩
  exact Vector.getElem_set_ne n.isLt k.isLt fun h => hk (Fin.ext h.symm)

/-- Settles O37: with no beat the update is its polls. -/
theorem throttledSpcUpdateOnlyPolls : Obligations.ThrottledSpcUpdateOnlyPolls := by
  unfold Obligations.ThrottledSpcUpdateOnlyPolls
  intro u s S hS hquiet
  have hbeat : spcHasBeat s.nowMs S = false := by
    rw [Bool.eq_false_iff, ne_eq, spcHasBeat_iff]
    rintro ⟨j, hj, hkind, hb⟩
    exact hb (hquiet j hj hkind)
  exact ⟨_, exec_spcUpdate_of_no_beat hS hbeat, rfl, pollSpc_pat s.nowMs⟩

/-- Settles O38, by the advanced slots and the fold over one or two of them; the mode decides only the ending. -/
theorem spcUpdateComposesThePixel : Obligations.SpcUpdateComposesThePixel := by
  unfold Obligations.SpcUpdateComposesThePixel
  intro u s S hS hbeat
  refine ⟨spcUpdated s.nowMs S, exec_spcUpdate_of_beat hS ((spcHasBeat_iff s.nowMs).mpr hbeat), rfl, fun j => ?_,
    composeSpc_of_one (S := advanceSpc s.nowMs S), composeSpc_of_two (S := advanceSpc s.nowMs S)⟩
  refine (advanceSpc_pat s.nowMs j).trans ?_
  by_cases hj : j.val < S.npat.val
  · simp only [hj, if_true, true_and, patAdvance_patPolled]
  · simp only [hj, if_false, false_and]

/-- Settles O39, by the kind of the pattern; the envelope is `tri`, on either side of its peak. -/
theorem patternsContributeByKind : Obligations.PatternsContributeByKind := by
  unfold Obligations.PatternsContributeByKind
  intro p c
  refine ⟨patContrib_of_solid c, patContrib_of_blink c, fun hkind hhalf hphase => ?_⟩
  refine ⟨_, tri_le hphase, tri_of_le, fun h => tri_add_of_lt h hphase, fun k => ?_⟩
  rw [patContrib_of_pwave c hkind]
  exact toNat_ch_scale c k hhalf (tri_le hphase)

/-- Settles O35: the record update of SPC_CLEAR, written out. -/
theorem spcClearBlacksThePixel : Obligations.SpcClearBlacksThePixel := by
  unfold Obligations.SpcClearBlacksThePixel
  intro u s S hS
  exact exec_spcClear_of_getElem? hS

end Sys2Proof.Machine

end

/-! ## The system: NOP, and what a host write stores (45_system) -/

section

namespace Sys2Proof.Machine

open Sys2Proof

/-! ### NOP (45_system R600) -/

/-- NOP has no effect before its ending. -/
theorem exec_nop (s : State) : exec .nop s = .next s.finish := rfl

/-! ### `CTRL` (45_system R612) -/

theorem standsAt_ctrl : StandsAt 0x008 .ctrl := ⟨by decide, by decide, rfl⟩

/-- The two low bits as a number (10_state R122). -/
theorem toNat_lowBits (v : Word) : (v.extractLsb' 0 2).toNat = v.toNat % 4 := by
  rw [BitVec.extractLsb'_toNat, Nat.shiftRight_zero]

theorem writeCtrl_of_mode {v : Word} {m : DbgMode} (s : State) (h : modeOfBits (v.extractLsb' 0 2) = some m) :
    writeCtrl v s = { s with dbgMode := m } := by
  rw [writeCtrl, h]

theorem writeCtrl_of_reserved {v : Word} (s : State) (h : modeOfBits (v.extractLsb' 0 2) = none) :
    writeCtrl v s = s.recordError .arg v := by
  rw [writeCtrl, h]

/-! ### `STATUS` (45_system R613) -/

theorem standsAt_status : StandsAt 0x00C .status := ⟨by decide, by decide, rfl⟩

/-- Bit `j` of the mask is the bit of the value that stands over error bit `j` (10_state R124). -/
theorem getLsbD_statusClearMask (v : Word) (j : Fin 6) : (statusClearMask v).getLsbD j.val = v.getLsbD (8 + j.val) := by
  simp [statusClearMask]

theorem getLsbD_clearErrors_errs (v : Word) (s : State) (j : Fin 6) :
    (s.clearErrors v).errs.getLsbD j.val = (s.errs.getLsbD j.val && !v.getLsbD (8 + j.val)) := by
  rw [State.clearErrors_errs, BitVec.getLsbD_and, BitVec.getLsbD_not, getLsbD_statusClearMask, decide_eq_true j.isLt,
    Bool.true_and]

/-! ### `ARGk`, and the offsets with nothing to write (45_system R610) -/

/-- Everything a write to `ARGk` does: it replaces that argument and keeps the other three. -/
theorem writeArg_eq (k : Fin 4) (v : Word) (s : State) :
    ∃ a : Args, writeArg k v s = { s with args := a } ∧
      ∀ j : Fin 4, argValue a j = if j = k then v else argValue s.args j := by
  fin_cases k <;> exact ⟨_, rfl, fun j => by fin_cases j <;> rfl⟩

/-- Below `CTRL` stand only `ID` and `PARAM`, which no write changes (20_memory R202, R203). -/
theorem writeReg_of_low {off : Nat} (v : Word) (s : State) (h4 : off % 4 = 0) (h : off < 0x008) :
    writeReg v s (regOf off) = s := by
  obtain rfl | rfl : off = 0x000 ∨ off = 0x004 := by omega
  · rfl
  · rfl

/-! ### The statements -/

/-- Settles O45, by the four values of the two low bits. -/
theorem ctrlWriteStoresTheMode : Obligations.CtrlWriteStoresTheMode := by
  unfold Obligations.CtrlWriteStoresTheMode
  intro s v ms hr ha
  have hmode {n : Nat} (h : v.toNat % 4 = n) : modeOfBits (v.extractLsb' 0 2) = modeOfBits (BitVec.ofNat 2 n) := by
    rw [← h, ← toNat_lowBits, BitVec.ofNat_toNat, BitVec.setWidth_eq]
  rw [step_write v hr standsAt_ctrl ha, writeReg]
  refine ⟨fun h => ?_, fun h => ?_, fun h => ?_, fun h => ?_⟩
  · rw [writeCtrl_of_mode _ (hmode h)]
  · rw [writeCtrl_of_mode _ (hmode h)]
  · rw [writeCtrl_of_mode _ (hmode h)]
  · rw [writeCtrl_of_reserved _ (hmode h), State.recordError, ErrCode.bit_arg]
    rfl

/-- Settles O46, by the mask bit over each error bit. -/
theorem statusWriteClearsErrorBits : Obligations.StatusWriteClearsErrorBits := by
  unfold Obligations.StatusWriteClearsErrorBits
  intro s v ms hr ha
  exact ⟨_, step_write v hr standsAt_status ha, getLsbD_clearErrors_errs v s⟩

/-- Settles O48: such an offset lies below `CTRL` or above `ARG3`. -/
theorem otherWritesAreIgnored : Obligations.OtherWritesAreIgnored := by
  unfold Obligations.OtherWritesAreIgnored
  intro s off v ms hr hlt h4 hoff ha
  rw [step_write v hr ⟨hlt, h4, rfl⟩ ha]
  rcases Nat.lt_or_ge off 0x008 with hlow | hge
  · rw [writeReg_of_low v _ h4 hlow]
  · rw [writeReg_of_high off v _ (by omega)]

/-- Settles O9: NOP is its ending and nothing else. -/
theorem nopOnlyEndsTheCommand : Obligations.NopOnlyEndsTheCommand := by
  unfold Obligations.NopOnlyEndsTheCommand
  intro s
  exact exec_nop s

/-- Settles O44, through the write of one argument. -/
theorem argWriteStoresTheValue : Obligations.ArgWriteStoresTheValue := by
  unfold Obligations.ArgWriteStoresTheValue
  intro s v k ms hr ha
  rw [step_write v hr (standsAt_arg k) ha, writeReg]
  obtain ⟨a, heq, hargs⟩ := writeArg_eq k v { s with agenda := ms }
  exact ⟨a, congrArg _ heq, hargs⟩

end Sys2Proof.Machine

end

/-! ## The end of a flush wait, and reset (70_reset R800, R803, R811) -/

section

namespace Sys2Proof.Machine

open Sys2Proof

/-! ### A flush wait (70_reset R811) -/

/-- The Engine's turn in the wait for an SPC unit that is present. -/
theorem engineTurn_of_waitSpc {s : State} {u : Nat} {S : SpcUnit} (hr : s.rstN = true) (hp : s.phase = .waitSpc u)
    (hS : s.spc[u]? = some S) : engineTurn s = .next (if S.showAck = true then s.endSpcShow u S else s) := by
  simp [engineTurn, endSpcWait, hr, hp, hS]

/-- Settles O54, by the handshake that is waited for. -/
theorem flushWaitEndsOnAcknowledge : Obligations.FlushWaitEndsOnAcknowledge := by
  unfold Obligations.FlushWaitEndsOnAcknowledge
  rintro s ⟨hr, ha⟩
  rw [step_of_agenda_nil s ha]
  refine ⟨fun hp hack => ?_, fun hp hack => ?_, fun u S hp hS => ⟨fun hack => ?_, fun hack => ?_⟩⟩
  · rw [engineTurn_of_waitShow hp, if_pos ⟨hr, hack⟩, State.endShow]
  · rw [engineTurn_of_waitShow hp, if_neg (by simp [hack])]
  · rw [engineTurn_of_waitSpc hr hp hS, if_pos hack, State.endSpcShow]
  · rw [engineTurn_of_waitSpc hr hp hS, if_neg (by simp [hack])]

/-! ### What reset puts in place (10_state R175, 70_reset R803) -/

@[simp] theorem State.heldInReset_phase (s : State) : s.heldInReset.phase = .idle := rfl
@[simp] theorem State.heldInReset_showReq (s : State) : s.heldInReset.showReq = false := rfl

/-- Reset leaves every SPC unit its acknowledge level, an input. -/
theorem map_showAck_heldInReset (s : State) : s.heldInReset.spc.map SpcUnit.showAck = s.spc.map SpcUnit.showAck := by
  simp [State.heldInReset, SpcUnit.empty]

/-- Apart from its acknowledge level, every SPC unit stands at its reset value. -/
theorem map_dropAck_heldInReset (s : State) :
    s.heldInReset.spc.map (fun S => { S with showAck := false }) = (State.resetWith s.params).spc := by
  calc s.heldInReset.spc.map (fun S => { S with showAck := false }) = s.spc.map (fun _ => SpcUnit.empty false) :=
        List.map_map
    _ = List.replicate s.spc.length (SpcUnit.empty false) := List.map_const'

/-- Settles O57: outside the SPC units, `heldInReset` takes each field from the reset state or keeps it. -/
theorem assertedResetTakesResetValues : Obligations.AssertedResetTakesResetValues := by
  unfold Obligations.AssertedResetTakesResetValues
  intro s ms ha
  refine ⟨State.heldInReset { s with agenda := ms }, step_of_agenda_cons s _ ms ha, rfl, rfl, rfl, params_heldInReset _,
    rfl, rfl, rfl, rfl, rfl, rfl, map_showAck_heldInReset _, ?resetValues⟩
  case resetValues =>
    exact ⟨rfl, rfl, rfl, rfl, rfl, rfl, rfl, rfl, rfl, rfl, rfl, rfl, rfl, rfl, rfl, map_dropAck_heldInReset _⟩

/-! ### While `rst_n` is low, and when it rises (70_reset R800) -/

theorem engineTurn_of_reset {s : State} (hr : s.rstN = false) : engineTurn s = .next s := by
  simp [engineTurn, hr]

theorem hostWrite_of_reset {s : State} {off : Nat} (size : AccSize) (v : Word) (hr : s.rstN = false)
    (hlt : off < 0x50000) : hostWrite off size v s = .next s := by
  rw [hostWrite_eq off size v s hlt, if_pos hr]

theorem hostRead_of_reset {s : State} {off : Nat} (size : AccSize) (hr : s.rstN = false) (hlt : off < 0x50000) :
    hostRead off size s = .next { s with rdata := 0 } := by
  rw [hostRead_eq off size s hlt, if_pos hr]

/-- Settles O58: each turn or access made under reset is stopped by it, and the idle state that reset holds accepts a
`CMD` write by O43. -/
theorem resetHoldsThenReleases : Obligations.ResetHoldsThenReleases := by
  unfold Obligations.ResetHoldsThenReleases
  refine ⟨fun s off size v ms hr hlt => ⟨fun ha => ?_, fun ha => ?_, fun ha => ?_, fun ha => ?_⟩, fun s ms ha => ⟨?_, ?_⟩⟩
  · exact (step_of_agenda_nil s ha).trans (engineTurn_of_reset hr)
  · exact (step_of_agenda_cons s _ ms ha).trans (engineTurn_of_reset (s := { s with agenda := ms }) hr)
  · exact (step_of_agenda_cons s _ ms ha).trans (hostWrite_of_reset (s := { s with agenda := ms }) size v hr hlt)
  · exact (step_of_agenda_cons s _ ms ha).trans (hostRead_of_reset (s := { s with agenda := ms }) size hr hlt)
  · exact step_of_agenda_cons s _ ms ha
  · intro _ hheld
    have hidle : s.phase = .idle := hheld ▸ State.heldInReset_phase s
    have hreq : s.showReq = false := hheld ▸ State.heldInReset_showReq s
    refine ⟨hidle, hreq, fun v ms' hms => ?_⟩
    obtain ⟨haccepted, _⟩ := cmdWriteIsAcceptedOrDropped { s with agenda := ms, rstN := true } v ms' rfl hms
    exact haccepted hidle

end Sys2Proof.Machine

end
